-- ==== Sys2Proof/Word.lean ====
section
/-! DEFINITION. The word types of QRCORE and the names of its register fields.
Rule R5 fixes XLEN = 32, NREG = 16 and NPOLY = 4; rule R7 calls a register value a 32-bit pattern. -/

namespace Sys2Proof

/-- A 32-bit pattern: a scalar register, a command word or a register-map word (R7, R64). -/
abbrev Word := BitVec 32

/-- An 8-bit unit: a GF(256) coefficient, a codeword or a bit-buffer byte (R64). -/
abbrev Byte := BitVec 8

/-- The number of a scalar register R0..R15 (R22). Every value of the 4-bit field is legal (R86). -/
abbrev Reg := Fin 16

/-- The number of a polynomial register P0..P3 (R23). The field values 4..15 are reserved (R86),
so the decoder refuses them and no term of this type holds one. -/
abbrev PReg := Fin 4

end Sys2Proof
end

