-- ==== Sys2Proof/Syntax.lean ====
section
/-! DEFINITION. The 47 commands of QRCORE, one constructor per row of spec/opcode_table.json (R87).
A register operand is a register number, an immediate keeps the bits the format gives it (R85), and the
test flag `t` of the three build commands is a Bool (0 = real, 1 = test). -/

namespace Sys2Proof

/-- A command of QRCORE (R87), operands in the order of its assembler syntax (R91). -/
inductive Instr where
  /-- `NOP` (R101). -/
  | nop
  /-- `LI rd, imm` (R102). -/
  | li (rd : Reg) (imm : BitVec 16)
  /-- `ADD rd, ra, rb` (R103). -/
  | add (rd ra rb : Reg)
  /-- `SUB rd, ra, rb` (R104). -/
  | sub (rd ra rb : Reg)
  /-- `XOR rd, ra, rb` (R105). -/
  | xor (rd ra rb : Reg)
  /-- `RDSR rd, off` (R106). -/
  | rdsr (rd : Reg) (off : BitVec 16)
  /-- `SETVER imm` (R107). -/
  | setver (imm : BitVec 16)
  /-- `SETECL imm` (R108). -/
  | setecl (imm : BitVec 16)
  /-- `SETMASK imm` (R109). -/
  | setmask (imm : BitVec 16)
  /-- `LUI rd, imm` (R111). -/
  | lui (rd : Reg) (imm : BitVec 16)
  /-- `GF_EXP rd, ra` (R125). -/
  | gfExp (rd ra : Reg)
  /-- `GF_EXPI rd, imm` (R126). -/
  | gfExpi (rd : Reg) (imm : BitVec 16)
  /-- `GF_LOG rd, ra` (R127). -/
  | gfLog (rd ra : Reg)
  /-- `GF_MUL rd, ra, rb` (R128). -/
  | gfMul (rd ra rb : Reg)
  /-- `P_CLR pd` (R144). -/
  | pClr (pd : PReg)
  /-- `P_PUSHI pd, imm8` (R145). -/
  | pPushi (pd : PReg) (imm : Byte)
  /-- `P_PUSH pd, ra` (R146). -/
  | pPush (pd : PReg) (ra : Reg)
  /-- `P_NORM pd, shift` (R147). -/
  | pNorm (pd : PReg) (shift : BitVec 16)
  /-- `P_COPY pd, pa` (R148). -/
  | pCopy (pd pa : PReg)
  /-- `P_MUL pd, pa, pb` (R149). -/
  | pMul (pd pa pb : PReg)
  /-- `P_MOD pd, pa, pb` (R150). -/
  | pMod (pd pa pb : PReg)
  /-- `P_GEN pd, ra` (R151). -/
  | pGen (pd : PReg) (ra : Reg)
  /-- `P_LEN rd, pa` (R152). -/
  | pLen (rd : Reg) (pa : PReg)
  /-- `P_GET rd, pa, rb` (R153). -/
  | pGet (rd : Reg) (pa : PReg) (rb : Reg)
  /-- `BB_CLR` (R172). -/
  | bbClr
  /-- `BB_PUT n, imm` (R173). -/
  | bbPut (n : BitVec 5) (imm : BitVec 16)
  /-- `BB_PUTR ra, n` (R174). -/
  | bbPutr (ra : Reg) (n : BitVec 16)
  /-- `BB_GETBIT rd, ra` (R175). -/
  | bbGetbit (rd ra : Reg)
  /-- `BB_GETBYTE rd, ra` (R176). -/
  | bbGetbyte (rd ra : Reg)
  /-- `BB_FINAL` (R177). -/
  | bbFinal
  /-- `TBL_Q rd, ra, sel, k` (R213). -/
  | tblQ (rd ra : Reg) (sel k : Byte)
  /-- `RS_ENCODE` (R217). -/
  | rsEncode
  /-- `CW_RD rd, ra` (R218). -/
  | cwRd (rd ra : Reg)
  /-- `BCH_FMT rd, ra` (R245). -/
  | bchFmt (rd ra : Reg)
  /-- `BCH_VER rd, ra` (R246). -/
  | bchVer (rd ra : Reg)
  /-- `M_INIT` (R257). -/
  | mInit
  /-- `M_PROBES` (R259). -/
  | mProbes
  /-- `M_ALIGN` (R262). -/
  | mAlign
  /-- `M_TIMING` (R264). -/
  | mTiming
  /-- `M_TYPEINFO t` (R267). -/
  | mTypeinfo (t : Bool)
  /-- `M_TYPENUM t` (R269). -/
  | mTypenum (t : Bool)
  /-- `M_MAP` (R271). -/
  | mMap
  /-- `M_READ rd, ra, rb` (R272). -/
  | mRead (rd ra rb : Reg)
  /-- `MASKQ rd, ra, rb` (R301). -/
  | maskq (rd ra rb : Reg)
  /-- `M_SCORE` (R307). -/
  | mScore
  /-- `M_BUILD t` (R308). -/
  | mBuild (t : Bool)
  /-- `M_SELECT` (R310). -/
  | mSelect
  deriving DecidableEq, Repr

end Sys2Proof
end

