-- ==== Sys2Proof/WellFormed.lean ====
section
/-! DEFINITION. Which terms of `Instr` are commands of the block: the "range" column of rule R87.
The other encoding checks (R86, R88) are on bits that no operand of a term stands for; the decoder makes them. -/

namespace Sys2Proof

/-- The range of RDSR's offset: off ≤ 0x0FC and off[1:0] = 0 (R87, R106). -/
def offsetOk (off : BitVec 16) : Bool :=
  decide (off.toNat ≤ 0x0FC) && decide (off.toNat % 4 = 0)

/-- The selectors of TBL_Q that use k (R212). -/
def selUsesK (sel : Byte) : Bool :=
  sel == 5 || sel == 6 || sel == 7 || sel == 9

/-- The range of TBL_Q's immediate: sel ≤ 11, and k = 0 unless sel ∈ {5, 6, 7, 9} (R87, R212). -/
def tblOk (sel k : Byte) : Bool :=
  decide (sel.toNat ≤ 11) && (selUsesK sel || k == 0)

/-- The range of BB_PUT's bit count: n ≤ 16 (R87, R173). -/
def putOk (n : BitVec 5) : Bool := decide (n.toNat ≤ 16)

/-- The range of BB_PUTR's bit count: n = imm16 ≤ 32 (R87, R174). -/
def putrOk (n : BitVec 16) : Bool := decide (n.toNat ≤ 32)

/-- The term is a command: every field lies in the range rule R87 gives it. -/
def Instr.wf : Instr → Bool
  | .rdsr _ off => offsetOk off
  | .bbPut n _ => putOk n
  | .bbPutr _ n => putrOk n
  | .tblQ _ _ sel k => tblOk sel k
  | .nop | .li .. | .add .. | .sub .. | .xor .. | .setver .. | .setecl .. | .setmask .. | .lui .. => true
  | .gfExp .. | .gfExpi .. | .gfLog .. | .gfMul .. => true
  | .pClr .. | .pPushi .. | .pPush .. | .pNorm .. | .pCopy .. | .pMul .. | .pMod .. | .pGen .. => true
  | .pLen .. | .pGet .. => true
  | .bbClr | .bbGetbit .. | .bbGetbyte .. | .bbFinal => true
  | .rsEncode | .cwRd .. | .bchFmt .. | .bchVer .. => true
  | .mInit | .mProbes | .mAlign | .mTiming | .mTypeinfo .. | .mTypenum .. | .mMap | .mRead .. => true
  | .maskq .. | .mScore | .mBuild .. | .mSelect => true

end Sys2Proof
end

