-- ==== Sys2Proof/Decode.lean ====
section
/-! DEFINITION. Decoding a command word and encoding a command (30_encoding.md).
A word alone decides how it decodes (R90). The decoder is total and names why it refuses a word; the block
turns every refusal into ILLEGAL_COMMAND (R88). -/

namespace Sys2Proof

/-- Why a word is no command (R88). The block records none of this: ERRINFO is 0 for each. -/
inductive DecodeError where
  /-- The opcode is not in rule R87's table, or is reserved (R89). -/
  | undefinedOpcode
  /-- A bit listed as "must be zero", or fixed as 0 by the format, is 1. -/
  | mustBeZero
  /-- A polynomial field holds 4..15 (R86). -/
  | reservedPolynomial
  /-- A field is outside its "range" column (R87). -/
  | outOfRange
  deriving DecidableEq, Repr

/-- `v[lo + n - 1 : lo]` of a word, as an unsigned number (R6). -/
def bits (w : Word) (lo n : Nat) : Nat := w.toNat / 2 ^ lo % 2 ^ n

/-- The opcode, bits [31:24] of every format (R80). -/
def opField (w : Word) : Nat := bits w 24 8
/-- The field `rd` of formats R and I, bits [23:20] (R82, R83). -/
def rdField (w : Word) : Nat := bits w 20 4
/-- The field `ra` of formats R and I, bits [19:16] (R82, R83). -/
def raField (w : Word) : Nat := bits w 16 4
/-- The field `rb` of format R, bits [15:12] (R82). -/
def rbField (w : Word) : Nat := bits w 12 4
/-- The bits [11:0] that format R fixes as 0 (R82). -/
def lowField (w : Word) : Nat := bits w 0 12
/-- The field `imm16` of formats I and B, bits [15:0] (R83 to R85). -/
def immField (w : Word) : Nat := bits w 0 16
/-- The bit count `n` of format B, bits [23:19] (R84). -/
def countField (w : Word) : Nat := bits w 19 5
/-- The bits [18:16] that format B fixes as 0 (R84). -/
def gapField (w : Word) : Nat := bits w 16 3
/-- The bits [23:0] that format Z fixes as 0 (R81). -/
def restField (w : Word) : Nat := bits w 0 24

/-- A scalar register number from a field's value; every value of the 4-bit field is legal (R86). -/
def reg (f : Nat) : Reg := Fin.ofNat 16 f
/-- A polynomial register number from a field's value, once `polyOk` has passed it (R86). -/
def preg (f : Nat) : PReg := Fin.ofNat 4 f
/-- A field that names a polynomial register must hold 0..3 (R86). -/
def polyOk (f : Nat) : Bool := decide (f < 4)

/-- The field checks of one command, in one place: its zero bits, its polynomial fields, its ranges (R88). -/
def checked (zero poly : Bool) (i : Instr) : Except DecodeError Instr :=
  if zero then
    if poly then
      if i.wf then .ok i else .error .outOfRange
    else .error .reservedPolynomial
  else .error .mustBeZero

/-- Format Z: no operand, bits [23:0] zero (R81). -/
def formZ (w : Word) (i : Instr) : Except DecodeError Instr :=
  checked (restField w == 0) true i
/-- Format R: bits [11:0] zero, and whatever else the command leaves unused (R82). -/
def formR (w : Word) (unused poly : Bool) (i : Instr) : Except DecodeError Instr :=
  checked (lowField w == 0 && unused) poly i
/-- Format I: the register fields the command does not use must be 0 (R83). -/
def formI (unused poly : Bool) (i : Instr) : Except DecodeError Instr :=
  checked unused poly i

/-- The command a word stands for, or why it is none (R87, R88). -/
def decode (w : Word) : Except DecodeError Instr :=
  let rd := rdField w
  let ra := raField w
  let rb := rbField w
  let imm := BitVec.ofNat 16 (immField w)
  let imm8 := BitVec.ofNat 8 (bits w 0 8)
  let hi8 := BitVec.ofNat 8 (bits w 8 8)
  let t := bits w 0 1 == 1
  let noRd := rd == 0
  let noRa := ra == 0
  let noRb := rb == 0
  let flagOnly := noRd && noRa && bits w 1 15 == 0
  match opField w with
  | 0x00 => formZ w .nop
  | 0x01 => formI noRa true (.li (reg rd) imm)
  | 0x02 => formR w true true (.add (reg rd) (reg ra) (reg rb))
  | 0x03 => formR w true true (.sub (reg rd) (reg ra) (reg rb))
  | 0x04 => formR w true true (.xor (reg rd) (reg ra) (reg rb))
  | 0x05 => formI noRa true (.rdsr (reg rd) imm)
  | 0x06 => formI (noRd && noRa) true (.setver imm)
  | 0x07 => formI (noRd && noRa) true (.setecl imm)
  | 0x08 => formI (noRd && noRa) true (.setmask imm)
  | 0x09 => formI noRa true (.lui (reg rd) imm)
  | 0x10 => formR w noRb true (.gfExp (reg rd) (reg ra))
  | 0x11 => formI noRa true (.gfExpi (reg rd) imm)
  | 0x12 => formR w noRb true (.gfLog (reg rd) (reg ra))
  | 0x13 => formR w true true (.gfMul (reg rd) (reg ra) (reg rb))
  | 0x20 => formR w (noRa && noRb) (polyOk rd) (.pClr (preg rd))
  | 0x21 => formI (noRa && hi8 == 0) (polyOk rd) (.pPushi (preg rd) imm8)
  | 0x22 => formR w noRb (polyOk rd) (.pPush (preg rd) (reg ra))
  | 0x23 => formI noRa (polyOk rd) (.pNorm (preg rd) imm)
  | 0x24 => formR w noRb (polyOk rd && polyOk ra) (.pCopy (preg rd) (preg ra))
  | 0x25 => formR w true (polyOk rd && polyOk ra && polyOk rb) (.pMul (preg rd) (preg ra) (preg rb))
  | 0x26 => formR w true (polyOk rd && polyOk ra && polyOk rb) (.pMod (preg rd) (preg ra) (preg rb))
  | 0x27 => formR w noRb (polyOk rd) (.pGen (preg rd) (reg ra))
  | 0x28 => formR w noRb (polyOk ra) (.pLen (reg rd) (preg ra))
  | 0x29 => formR w true (polyOk ra) (.pGet (reg rd) (preg ra) (reg rb))
  | 0x30 => formZ w .bbClr
  | 0x31 => formI (gapField w == 0) true (.bbPut (BitVec.ofNat 5 (countField w)) imm)
  | 0x32 => formI noRd true (.bbPutr (reg ra) imm)
  | 0x33 => formR w noRb true (.bbGetbit (reg rd) (reg ra))
  | 0x34 => formR w noRb true (.bbGetbyte (reg rd) (reg ra))
  | 0x35 => formZ w .bbFinal
  | 0x40 => formI true true (.tblQ (reg rd) (reg ra) imm8 hi8)
  | 0x41 => formZ w .rsEncode
  | 0x42 => formR w noRb true (.cwRd (reg rd) (reg ra))
  | 0x50 => formR w noRb true (.bchFmt (reg rd) (reg ra))
  | 0x51 => formR w noRb true (.bchVer (reg rd) (reg ra))
  | 0x60 => formZ w .mInit
  | 0x61 => formZ w .mProbes
  | 0x62 => formZ w .mAlign
  | 0x63 => formZ w .mTiming
  | 0x64 => formI flagOnly true (.mTypeinfo t)
  | 0x65 => formI flagOnly true (.mTypenum t)
  | 0x66 => formZ w .mMap
  | 0x67 => formR w true true (.mRead (reg rd) (reg ra) (reg rb))
  | 0x70 => formR w true true (.maskq (reg rd) (reg ra) (reg rb))
  | 0x71 => formZ w .mScore
  | 0x72 => formI flagOnly true (.mBuild t)
  | 0x73 => formZ w .mSelect
  | _ => .error .undefinedOpcode

/-! ### The encoder -/

/-- The opcode of a command (R87). -/
def Instr.opcode : Instr → Nat
  | .nop => 0x00
  | .li .. => 0x01
  | .add .. => 0x02
  | .sub .. => 0x03
  | .xor .. => 0x04
  | .rdsr .. => 0x05
  | .setver .. => 0x06
  | .setecl .. => 0x07
  | .setmask .. => 0x08
  | .lui .. => 0x09
  | .gfExp .. => 0x10
  | .gfExpi .. => 0x11
  | .gfLog .. => 0x12
  | .gfMul .. => 0x13
  | .pClr .. => 0x20
  | .pPushi .. => 0x21
  | .pPush .. => 0x22
  | .pNorm .. => 0x23
  | .pCopy .. => 0x24
  | .pMul .. => 0x25
  | .pMod .. => 0x26
  | .pGen .. => 0x27
  | .pLen .. => 0x28
  | .pGet .. => 0x29
  | .bbClr => 0x30
  | .bbPut .. => 0x31
  | .bbPutr .. => 0x32
  | .bbGetbit .. => 0x33
  | .bbGetbyte .. => 0x34
  | .bbFinal => 0x35
  | .tblQ .. => 0x40
  | .rsEncode => 0x41
  | .cwRd .. => 0x42
  | .bchFmt .. => 0x50
  | .bchVer .. => 0x51
  | .mInit => 0x60
  | .mProbes => 0x61
  | .mAlign => 0x62
  | .mTiming => 0x63
  | .mTypeinfo .. => 0x64
  | .mTypenum .. => 0x65
  | .mMap => 0x66
  | .mRead .. => 0x67
  | .maskq .. => 0x70
  | .mScore => 0x71
  | .mBuild .. => 0x72
  | .mSelect => 0x73

/-- The word of formats Z and R: opcode, rd, ra, rb, twelve zero bits (R81, R82). -/
def wordR (op rd ra rb : Nat) : Word := BitVec.ofNat 32 (op * 2 ^ 24 + rd * 2 ^ 20 + ra * 2 ^ 16 + rb * 2 ^ 12)
/-- The word of format I: opcode, rd, ra, imm16 (R83). -/
def wordI (op rd ra imm : Nat) : Word := BitVec.ofNat 32 (op * 2 ^ 24 + rd * 2 ^ 20 + ra * 2 ^ 16 + imm)
/-- The word of format B: opcode, n, three zero bits, imm16 (R84). -/
def wordB (op n imm : Nat) : Word := BitVec.ofNat 32 (op * 2 ^ 24 + n * 2 ^ 19 + imm)

/-- The operand fields of a command laid into the word of its format (R81 to R87). -/
def encode (i : Instr) : Word :=
  match i with
  | .nop | .bbClr | .bbFinal | .rsEncode => wordR i.opcode 0 0 0
  | .mInit | .mProbes | .mAlign | .mTiming | .mMap | .mScore | .mSelect => wordR i.opcode 0 0 0
  | .li rd imm | .rdsr rd imm | .lui rd imm | .gfExpi rd imm => wordI i.opcode rd 0 imm.toNat
  | .setver imm | .setecl imm | .setmask imm => wordI i.opcode 0 0 imm.toNat
  | .add rd ra rb | .sub rd ra rb | .xor rd ra rb | .gfMul rd ra rb => wordR i.opcode rd ra rb
  | .mRead rd ra rb | .maskq rd ra rb => wordR i.opcode rd ra rb
  | .gfExp rd ra | .gfLog rd ra | .bbGetbit rd ra | .bbGetbyte rd ra => wordR i.opcode rd ra 0
  | .cwRd rd ra | .bchFmt rd ra | .bchVer rd ra => wordR i.opcode rd ra 0
  | .pClr pd => wordR i.opcode pd 0 0
  | .pPushi pd imm => wordI i.opcode pd 0 imm.toNat
  | .pPush pd ra | .pGen pd ra => wordR i.opcode pd ra 0
  | .pNorm pd shift => wordI i.opcode pd 0 shift.toNat
  | .pCopy pd pa => wordR i.opcode pd pa 0
  | .pMul pd pa pb | .pMod pd pa pb => wordR i.opcode pd pa pb
  | .pLen rd pa => wordR i.opcode rd pa 0
  | .pGet rd pa rb => wordR i.opcode rd pa rb
  | .bbPut n imm => wordB i.opcode n.toNat imm.toNat
  | .bbPutr ra n => wordI i.opcode 0 ra n.toNat
  | .tblQ rd ra sel k => wordI i.opcode rd ra (k.toNat * 2 ^ 8 + sel.toNat)
  | .mTypeinfo t | .mTypenum t | .mBuild t => wordI i.opcode 0 0 t.toNat

/-- The instruction the decoder reads from a row of spec/opcode_table.json whose bits are `w`. Every command is
one 32-bit word (R80) that reaches the block as an integer, with no byte order (R65), so the table's bit
numbering is the word's own. A row of more than 32 bits would be no command. -/
def decodeTableWord (nbits w : Nat) : Option Instr :=
  if nbits ≤ 32 then (decode (BitVec.ofNat 32 (w % 2 ^ nbits))).toOption else none

end Sys2Proof
end

