-- ==== Sys2Proof/Config.lean ====
section
/-! DEFINITION. What an instance of QRCORE fixes: the parameters of rule R5, the two OPEN parameters the
block itself takes (N4_MODE, BLOCK_BASE), the host's OPEN parameter HOST_ALNUM_MODE, and the free value that
stands for a register-map read while the block is busy (R367). -/

namespace Sys2Proof.Config

/-- NREG (R5): scalar registers R0..R15. -/
abbrev nReg : Nat := 16
/-- NPOLY (R5): polynomial registers P0..P3. -/
abbrev nPoly : Nat := 4
/-- PMAX (R5): the most coefficients a polynomial register holds. -/
abbrev pMax : Nat := 256
/-- BB_MAX_BITS (R5): bit-buffer capacity in bits. -/
abbrev bbMaxBits : Nat := 23648
/-- CWM_BYTES (R5): codeword-memory size in bytes. -/
abbrev cwmBytes : Nat := 3706
/-- MAX_SIDE (R5): the module matrix is MAX_SIDE × MAX_SIDE. -/
abbrev maxSide : Nat := 177
/-- The largest symbol version (R5, "VER range"). -/
abbrev maxVer : Nat := 40
/-- The size of the register-map window in bytes (R60). -/
abbrev windowBytes : Nat := 4096
/-- The ID register's constant value, "QRC1" (R1, R40). -/
abbrev idWord : Word := 0x51524331

/-- N4_MODE (R5, R42): the arithmetic of penalty rule 4. CFG bit 16 shows it (0 = EXACT, 1 = FLOOR). -/
inductive N4Mode where
  /-- The code-form expression, unfloored: the spec's default (R305, C1). -/
  | exact
  /-- The form floored to 5 % buckets (R305, C1). -/
  | floor
  deriving DecidableEq, Repr

/-- HOST_ALNUM_MODE (R5, R197): how the HOST writes alphanumeric and Kanji segments. The block never sees it. -/
inductive AlnumMode where
  /-- Such a segment is written as a BYTE segment of its text's UTF-8 form. -/
  | byteFallback
  /-- Such a segment is packed as the QR standard packs it. -/
  | standard
  deriving DecidableEq, Repr

/-- The parameters one instance of the block is built with. They are constants of the instance (R42, R74),
held beside the state so that every statement about a state holds for each value of them (assumption 6). -/
structure Params where
  /-- N4_MODE, OPEN at the model (R5). -/
  n4Mode : N4Mode
  /-- BLOCK_BASE, the byte address of the window on the host bus, OPEN (R5, R74). -/
  blockBase : Nat
  deriving DecidableEq, Repr

/-- The value a register-map read returns while BUSY = 1: "an unspecified value: a draw, under no law" (R367).
It has no body, so nothing can be proved of it. The state's counter `draws` gives a fresh one to each read
(assumption 5, DESIGN CHOICE of the form; safe). -/
opaque freeBusRead : Nat → Word

end Sys2Proof.Config
end

