-- ==== Sys2Proof/Machine/State.lean ====
section
/-! DEFINITION. The state of QRCORE (R21), its reset value (R360), and the reasons a step can stop.
Every element of rule R21's table is a field here; the ROMs are constants (`Machine/Rom.lean`). Beside them stand
the model's own fields: the command in execution (R34, R35, R63), the reset pin (R362), the host's pending
interactions (R366) and what a read returned. -/

namespace Sys2Proof.Machine

/-- A memory, as the list of its cells that differ from what an unlisted cell reads as, by strictly rising
address. `Machine/Ops.lean` has its operations and its canonical form `Memory.wf`. -/
abbrev Memory (α : Type) := List (Nat × α)

/-- A cell of the module matrix (R27). The fourth code, 0b01, never occurs, so it has no constructor. -/
inductive MCell where
  /-- UNSET = 0b00. -/
  | unset
  /-- LIGHT = 0b10. -/
  | light
  /-- DARK = 0b11. -/
  | dark
  deriving DecidableEq, Repr

/-- The cells of MAT: for each row that holds a set cell, its set cells by column (assumption 4). -/
abbrev Grid := Memory (Memory MCell)

/-- The build state MSTATE (R28). Codes 9..15 never occur, so they have no constructor. -/
inductive MState where
  | none | empty | probes | align | timing | typeinfo | typenum | mapped | scored
  deriving DecidableEq, Repr

/-- The error codes of rule R330. Codes 12..255 are never written, so they have no constructor. -/
inductive ErrCode where
  | none | capacityExceeded | invalidCharacter | unsupportedMode | outOfRangeAccess | malformedPolynomial
  | gfDomain | illegalCommand | badParameter | sequenceError | resourceOverflow | cmdOverrun
  deriving DecidableEq, Repr

/-- The configuration registers (R24), readable in CFG (R42). -/
structure Conf where
  /-- VER, 0..40; 0 means unset. -/
  ver : BitVec 6
  /-- ECL, the error-correction level code: 0 LOW, 1 MEDIUM, 2 QUARTILE, 3 HIGH. -/
  ecl : BitVec 2
  /-- MASK, the mask pattern 0..7. -/
  mask : BitVec 3
  deriving DecidableEq, Repr

/-- The codeword memory (R26). -/
structure CwMem where
  /-- CWM[0..3705], bytes by index. -/
  cells : List Host.Cell
  /-- CWLEN, 0..3706. -/
  len : BitVec 12
  /-- CW_READY. -/
  ready : Bool
  deriving DecidableEq, Repr

/-- The module matrix and its build state (R27, R28, R29). -/
structure Matrix where
  /-- MAT[0..176][0..176]. -/
  cells : Grid
  /-- SIDE, 0 or 21..177. -/
  side : BitVec 8
  /-- MSTATE. -/
  mstate : MState
  /-- MTEST. -/
  mtest : Bool
  deriving DecidableEq, Repr

/-- The score registers (R30): the result of the last M_SCORE, or of the selected trial of the last M_SELECT. -/
structure ScoreRegs where
  pen1 : Word
  pen2 : Word
  pen3 : Word
  /-- PEN4NUM, penalty rule 4 times T. -/
  pen4num : Word
  /-- DARK, the count of dark modules. -/
  dark : BitVec 15
  /-- SCORE, the lost point times T. -/
  score : BitVec 64
  deriving DecidableEq, Repr

/-- The selection registers (R31): the trial scores of the last M_SELECT and the mask it selected. -/
structure SelRegs where
  /-- SEL_SCORE[0..7]. -/
  selScore : Vector (BitVec 64) 8
  /-- BEST_MASK. -/
  bestMask : BitVec 3
  deriving DecidableEq, Repr

/-- The error record (R32). -/
structure ErrRecord where
  /-- STATUS.ERR: the block has halted on an error. -/
  err : Bool
  /-- ERRCODE. -/
  code : ErrCode
  /-- ERRCMD, the command word that failed. -/
  cmd : Word
  /-- ERRINFO, the detail of rule R332. -/
  info : Word
  /-- ERRCNT, the CMDCNT value when the error was raised. -/
  cnt : Word
  deriving DecidableEq, Repr

/-- One turn of a run: the block goes on, or the host makes one of its interactions (R366), or the platform
drives RST_N (R362). -/
inductive Turn where
  /-- The block's turn: the command in execution completes; an idle block does nothing (R344). -/
  | block
  /-- The host writes a word at a byte address of its bus. -/
  | write (addr : Nat) (data : Word)
  /-- The host reads the word at a byte address of its bus. -/
  | read (addr : Nat)
  /-- The platform drives RST_N to a level (false = low = reset). -/
  | rstN (level : Bool)
  deriving DecidableEq, Repr

/-- The world outside the block, as plain data (assumption 2): none of it is state of the block. -/
structure Outside where
  /-- The level of the input pin RST_N, active low (R362). -/
  rstN : Bool
  /-- The turns still to come, the next one first. When it is empty every turn is the block's. -/
  turns : List Turn
  /-- The word the host's last read of the window returned; none before the first. -/
  readData : Option Word
  /-- How many free values reads while BUSY have drawn (assumption 5). -/
  draws : Nat
  deriving DecidableEq, Repr

/-- The whole machine. -/
structure State where
  /-- The instance's constants N4_MODE and BLOCK_BASE (R5), never written (assumption 6). -/
  inst : Config.Params
  /-- R0..R15 (R22). -/
  regs : Vector Word 16
  /-- P0..P3, most significant coefficient first (R23). -/
  polys : Vector (List Byte) 4
  /-- VER, ECL, MASK (R24). -/
  conf : Conf
  /-- The bit buffer BB, bit 0 first; BBLEN is its length (R25). -/
  bb : List Bool
  /-- CWM, CWLEN, CW_READY (R26). -/
  cw : CwMem
  /-- MAT, SIDE, MSTATE, MTEST (R27 to R29). -/
  mx : Matrix
  /-- PEN1, PEN2, PEN3, PEN4NUM, DARK, SCORE (R30). -/
  score : ScoreRegs
  /-- SEL_SCORE[0..7], BEST_MASK (R31). -/
  sel : SelRegs
  /-- STATUS.ERR, ERRCODE, ERRCMD, ERRINFO, ERRCNT (R32). -/
  error : ErrRecord
  /-- CMDCNT (R33). -/
  cmdCnt : Word
  /-- STATUS.BUSY (R34). -/
  busy : Bool
  /-- The command word last accepted; the command in execution while BUSY = 1 (R34, R35; assumption 1). -/
  cmd : Word
  /-- The word refused while BUSY = 1, kept until the command in execution completes (R337; assumption 1). -/
  overrun : Option Word
  /-- The host and the reset pin (R20, R362, R366). -/
  outside : Outside
  deriving DecidableEq, Repr

/-- Why a step could stop the model with a fault. There is no reason: every error of the block is precise, is
recorded, and leaves a next state (R333, R335), every bus access has an answer (R61), and every command
terminates (R371). So the type has no constructor and no step faults (safe: nothing is claimed of a faulted
machine; assumption 11). -/
inductive Fault where
  deriving DecidableEq, Repr

/-- Why a step could refuse. -/
inductive Refusal where
  /-- An instruction of the table with no meaning yet, by its mnemonic. `exec` alone could raise it, and no arm
  does: all 47 have their meaning (safe). -/
  | notModelled (mnemonic : String)
  deriving DecidableEq, Repr

/-- The outcome of a step or of a command. -/
abbrev Outcome := Host.Outcome State Fault Refusal

/-- The configuration after reset: VER = 0 (unset), ECL = 0 (LOW), MASK = 0 (R360). -/
def Conf.reset : Conf := { ver := 0, ecl := 0, mask := 0 }
/-- The codeword memory after reset: CWLEN = 0, CW_READY = 0 (R360); CWM is unspecified there, and lists no
byte here (assumption 3, DESIGN CHOICE). -/
def CwMem.reset : CwMem := { cells := [], len := 0, ready := false }
/-- The matrix after reset: SIDE = 0, MSTATE = NONE, MTEST = 0 (R360); MAT is unspecified there, and lists no
cell here (assumption 4, DESIGN CHOICE). -/
def Matrix.reset : Matrix := { cells := [], side := 0, mstate := .none, mtest := false }
/-- The score registers after reset, all 0 (R360). -/
def ScoreRegs.reset : ScoreRegs := { pen1 := 0, pen2 := 0, pen3 := 0, pen4num := 0, dark := 0, score := 0 }
/-- The selection registers after reset, all 0 (R360). -/
def SelRegs.reset : SelRegs := { selScore := Vector.replicate 8 0, bestMask := 0 }
/-- The error record after reset, all 0 (R360). -/
def ErrRecord.reset : ErrRecord := { err := false, code := .none, cmd := 0, info := 0, cnt := 0 }

/-- A reset of the block of an instance, in a given outside world: every state element of rule R21 takes its
value of rule R360's table, and no command is in execution or pending. -/
def State.resetOf (p : Config.Params) (o : Outside) : State :=
  { inst := p
    regs := Vector.replicate 16 0
    polys := Vector.replicate 4 []
    conf := Conf.reset
    bb := []
    cw := CwMem.reset
    mx := Matrix.reset
    score := ScoreRegs.reset
    sel := SelRegs.reset
    error := ErrRecord.reset
    cmdCnt := 0
    busy := false
    cmd := 0
    overrun := none
    outside := o }

/-- The machine right after reset (R360): N4_MODE = EXACT, the spec's default, BLOCK_BASE = 0 (assumption 6),
RST_N released and the host yet to act (assumption 2). -/
def State.reset : State :=
  State.resetOf { n4Mode := .exact, blockBase := 0 }
    { rstN := true, turns := [], readData := none, draws := 0 }

end Sys2Proof.Machine
end

