-- ==== Sys2Proof/Machine/Ops.lean ====
section
/-! DEFINITION. The operations every command shares: reading and writing the memories and the register files,
completing a command (R33, R63), raising an error (R333), the deferred CMD_OVERRUN (R337) and the reset that alone
leaves the halted state (R336, R361). -/

namespace Sys2Proof.Machine

/-! ### Memories (R60, R64)

`d` is what an unlisted cell reads as: 0 for a CWM byte, UNSET for a MAT cell, no cells for a row of MAT. -/

/-- What the memory holds at an address. -/
def Memory.read {α : Type} (d : α) : Memory α → Nat → α
  | [], _ => d
  | (k, v) :: m, a => if a = k then v else if a < k then d else Memory.read d m a

/-- The memory with one cell written. Writing `d` removes the entry, so the canonical form is kept. -/
def Memory.write {α : Type} [DecidableEq α] (d : α) : Memory α → Nat → α → Memory α
  | [], a, x => if x = d then [] else [(a, x)]
  | (k, v) :: m, a, x =>
    if a < k then if x = d then (k, v) :: m else (a, x) :: (k, v) :: m
    else if a = k then if x = d then m else (a, x) :: m
    else (k, v) :: Memory.write d m a x

/-- The memory with a run of cells written, from an address on. -/
def Memory.writeRun {α : Type} [DecidableEq α] (d : α) (m : Memory α) (a : Nat) : List α → Memory α
  | [] => m
  | x :: xs => Memory.writeRun d (Memory.write d m a x) (a + 1) xs

/-- The canonical form from an address on: addresses rise strictly, and no entry equals `d`. -/
def Memory.wfFrom {α : Type} [DecidableEq α] (d : α) : Nat → Memory α → Bool
  | _, [] => true
  | lo, (k, v) :: m => decide (lo ≤ k) && (decide (v ≠ d) && Memory.wfFrom d (k + 1) m)

/-- The canonical form of a memory. -/
def Memory.wf {α : Type} [DecidableEq α] (d : α) (m : Memory α) : Bool := Memory.wfFrom d 0 m

/-- Every address a memory lists lies below a bound. -/
def Memory.below {α : Type} (bound : Nat) (m : Memory α) : Bool := m.all fun c => decide (c.1 < bound)

/-- What a byte of CWM that nothing has written reads as (assumption 3, DESIGN CHOICE): R360 leaves it unspecified. -/
def cwmUnwritten : Byte := 0

/-- CWM[k] (R9). -/
def State.cwm (s : State) (k : Nat) : Byte := Memory.read cwmUnwritten s.cw.cells k

/-! ### The module matrix (R27) -/

/-- MAT[r][c]. A cell that nothing has written reads UNSET (assumption 4, DESIGN CHOICE). -/
def gridGet (g : Grid) (r c : Nat) : MCell := Memory.read .unset (Memory.read [] g r) c

/-- MAT with MAT[r][c] ← v. -/
def gridSet (g : Grid) (r c : Nat) (v : MCell) : Grid :=
  Memory.write [] g r (Memory.write .unset (Memory.read [] g r) c v)

/-- DARK or LIGHT, as a boolean commits (R256). -/
def MCell.ofDark (dark : Bool) : MCell := if dark then .dark else .light

/-- The 2-bit code of a cell: UNSET = 0b00, LIGHT = 0b10, DARK = 0b11 (R27). -/
def MCell.code : MCell → BitVec 2
  | .unset => 0b00
  | .light => 0b10
  | .dark => 0b11

/-- The guarded placement write `Set(r, c, dark)` (R256): only an UNSET cell is written. -/
def gridPlace (g : Grid) (r c : Nat) (dark : Bool) : Grid :=
  if gridGet g r c = .unset then gridSet g r c (.ofDark dark) else g

/-- A sequence of guarded placement writes, in order. -/
def gridPlaceAll (g : Grid) (l : List (Nat × Nat × Bool)) : Grid :=
  l.foldl (fun g x => gridPlace g x.1 x.2.1 x.2.2) g

/-- The cells of a row outside the first n columns. -/
def rowOutside (n : Nat) (row : Memory MCell) : Memory MCell := row.filter fun c => decide (n ≤ c.1)

/-- MAT with every cell of the n × n square UNSET, the others as they were (R257). -/
def gridClear (n : Nat) (g : Grid) : Grid :=
  g.filterMap fun x =>
    let row := if x.1 < n then rowOutside n x.2 else x.2
    if row = [] then none else some (x.1, row)

/-- The canonical form of MAT: the rows listed, and the cells of each row, are in canonical form. -/
def gridWf (g : Grid) : Bool := Memory.wf [] g && g.all fun x => Memory.wf .unset x.2

/-- Every cell MAT lists lies in the 177 × 177 array (R27). -/
def gridBelow (bound : Nat) (g : Grid) : Bool := Memory.below bound g && g.all fun x => Memory.below bound x.2

/-- Both memories of the state are in canonical form. -/
def State.memWf (s : State) : Bool := Memory.wf cwmUnwritten s.cw.cells && gridWf s.mx.cells

/-! ### The register files (R22, R23) -/

/-- R[i]. -/
def State.reg (s : State) (i : Reg) : Word := s.regs[i]

/-- R[i] <- v. -/
def State.setReg (s : State) (i : Reg) (v : Word) : State := { s with regs := s.regs.set i.val v i.isLt }

/-- P[i]. -/
def State.poly (s : State) (i : PReg) : List Byte := s.polys[i]

/-- P[i] <- q. -/
def State.setPoly (s : State) (i : PReg) (q : List Byte) : State := { s with polys := s.polys.set i.val q i.isLt }

/-! ### Completing and raising -/

/-- What `raise E(info)` reports (R9, R332). -/
structure CmdError where
  code : ErrCode
  info : Word
  deriving DecidableEq, Repr

/-- What the pseudocode of a command comes to: the state with all its writes, or the error it raises, whose
writes are discarded (R10, R68, R333). -/
abbrev Effect := Except CmdError State

/-- `if bad: raise e`, then go on. -/
def raiseIf {α : Type} (bad : Prop) [Decidable bad] (e : CmdError) (k : Except CmdError α) : Except CmdError α :=
  if bad then .error e else k

/-- The completion of a command: CMDCNT increments mod 2^32 and BUSY becomes 0 (R33, R63). -/
def State.complete (s : State) : State := { s with cmdCnt := s.cmdCnt + 1, busy := false }

/-- The error mechanism (R333): the error record is written, the block halts, BUSY becomes 0 and CMDCNT stays.
Every other element keeps its value from before the command. -/
def State.raised (s : State) (e : CmdError) : State :=
  { s with
    error := { err := true, code := e.code, cmd := s.cmd, info := e.info, cnt := s.cmdCnt }
    busy := false }

/-- A command ends: it completes with its effect on the state it started from, or it raises (R63, R68, R333). -/
def State.finish (s : State) (r : Effect) : Outcome :=
  match r with
  | .ok s' => .next s'.complete
  | .error e => .next (s.raised e)

/-- The error of a word that is no command: ERRINFO = 0 (R88, R332). -/
def illegalCommand : CmdError := { code := .illegalCommand, info := 0 }

/-- After the command in execution has ended: a word refused meanwhile is recorded as CMD_OVERRUN, unless the
command raised an error of its own, and is then forgotten (R337). -/
def State.settleOverrun (s : State) : State :=
  match s.overrun with
  | none => s
  | some w =>
    if s.error.err then { s with overrun := none }
    else
      { s with
        error := { err := true, code := .cmdOverrun, cmd := w, info := 0, cnt := s.cmdCnt }
        overrun := none }

/-- The block's side of a step once a command has been run: the deferred CMD_OVERRUN (R337). -/
def afterCommand : Outcome → Outcome
  | .next s => .next s.settleOverrun
  | .fault r => .fault r
  | .refused r => .refused r

/-- The reset of rule R360, the only way out of the halted state (R336): every state element takes its reset
value, and a command in execution is abandoned (R361). The instance's constants and the outside world stay. -/
def State.resetBlock (s : State) : State := State.resetOf s.inst s.outside

end Sys2Proof.Machine
end

