-- ==== Sys2Proof/Machine/Flags.lean ====
section
/-! DEFINITION. The block's flags and status words: STATUS (R41), CFG (R42), the invalidations of CW_READY and
of the matrix (R26, R28), and the configuration and sequence checks (R100, R334). QRCORE's arithmetic sets no
flag: there is no carry, overflow or condition code (R112). -/

namespace Sys2Proof.Machine

/-- The 4-bit code of a build state (R28). -/
def MState.code : MState → BitVec 4
  | .none => 0
  | .empty => 1
  | .probes => 2
  | .align => 3
  | .timing => 4
  | .typeinfo => 5
  | .typenum => 6
  | .mapped => 7
  | .scored => 8

/-- The 8-bit code of an error (R330). -/
def ErrCode.code : ErrCode → BitVec 8
  | .none => 0
  | .capacityExceeded => 1
  | .invalidCharacter => 2
  | .unsupportedMode => 3
  | .outOfRangeAccess => 4
  | .malformedPolynomial => 5
  | .gfDomain => 6
  | .illegalCommand => 7
  | .badParameter => 8
  | .sequenceError => 9
  | .resourceOverflow => 10
  | .cmdOverrun => 11

/-- The STATUS word (R41) with a given BUSY bit: [7:4] MSTATE, 3 MTEST, 2 CW_READY, 1 ERR, 0 BUSY, [31:8] zero. -/
def State.statusWith (s : State) (busy : Bool) : Word :=
  (0#24 ++ s.mx.mstate.code ++ BitVec.ofBool s.mx.mtest ++ BitVec.ofBool s.cw.ready ++ BitVec.ofBool s.error.err
    ++ BitVec.ofBool busy : BitVec 32)

/-- The STATUS register (R41). -/
def State.status (s : State) : Word := s.statusWith s.busy

/-- The STATUS value with BUSY read as 0, the detail of a SEQUENCE_ERROR (R332). -/
def State.statusIdle (s : State) : Word := s.statusWith false

/-- CFG bit 16 (R42). -/
def n4Bit : Config.N4Mode → Bool
  | .exact => false
  | .floor => true

/-- The CFG register (R42): 16 N4_MODE, [14:12] MASK, [9:8] ECL, [5:0] VER, the rest zero. -/
def State.cfg (s : State) : Word :=
  (0#15 ++ BitVec.ofBool (n4Bit s.inst.n4Mode) ++ 0#1 ++ s.conf.mask ++ 0#2 ++ s.conf.ecl ++ 0#2
    ++ s.conf.ver : BitVec 32)

/-- CW_READY <- 0 (R26). -/
def State.invalidateStream (s : State) : State := { s with cw := { s.cw with ready := false } }

/-- MSTATE <- NONE; SIDE <- 0 (R27, R28). -/
def State.dropMatrix (s : State) : State := { s with mx := { s.mx with mstate := .none, side := 0 } }

/-- "Requires VER ≠ 0": if VER = 0, `raise BAD_PARAMETER(0)` (R100). -/
def State.needVer {α : Type} (s : State) (k : Except CmdError α) : Except CmdError α :=
  raiseIf (s.conf.ver = 0) { code := .badParameter, info := 0 } k

/-- A required build state: otherwise SEQUENCE_ERROR with the STATUS value (R255, R332). -/
def State.needMState {α : Type} (s : State) (ok : Prop) [Decidable ok] (k : Except CmdError α) : Except CmdError α :=
  raiseIf (¬ ok) { code := .sequenceError, info := s.statusIdle } k

/-- A required codeword stream: CW_READY = 1, otherwise SEQUENCE_ERROR with the STATUS value (R218, R332). -/
def State.needStream {α : Type} (s : State) (k : Except CmdError α) : Except CmdError α :=
  raiseIf (s.cw.ready = false) { code := .sequenceError, info := s.statusIdle } k

end Sys2Proof.Machine
end

