-- ==== Sys2Proof/Machine/Operands.lean ====
section
/-! DEFINITION. The operand forms of the commands (R7, R85): a register read as an unsigned or a signed number,
the three ways a 16-bit immediate is read, and the results narrowed back to 32 bits. -/

namespace Sys2Proof.Machine

/-- `uint(v)` (R7). -/
def uint (v : Word) : Nat := v.toNat

/-- `sint(v)` (R7). -/
def sint (v : Word) : Int := v.toInt

/-- `sext_32(imm16)` (R7, R85). -/
def sext32 (imm : BitVec 16) : Word := imm.signExtend 32

/-- `zext_32(imm16)` as a register value (R7, R85). -/
def zext32 (imm : BitVec 16) : Word := imm.setWidth 32

/-- `zext_32(imm16) << 16` (R111). -/
def upper32 (imm : BitVec 16) : Word := zext32 imm <<< 16

/-- `zext_32(imm16)` as a number (R85). -/
def immNat (imm : BitVec 16) : Nat := imm.toNat

/-- An unsigned number as a register value, reduced mod 2^32 (R7). -/
def wordOf (n : Nat) : Word := BitVec.ofNat 32 n

/-- `uint(R[i])`. -/
def State.uintReg (s : State) (i : Reg) : Nat := uint (s.reg i)

/-- The detail of M_READ's OUT_OF_RANGE_ACCESS: `(r[15:0] << 16) | c[15:0]` (R272, R332). -/
def rowColumn (r c : Word) : Word := (r.setWidth 16 ++ c.setWidth 16 : BitVec 32)

end Sys2Proof.Machine
end

