-- ==== Sys2Proof/Machine/RegMap.lean ====
section
/-! DEFINITION. The register map as a read sees it (R40 to R43, R61). RDSR (R106) and the host's bus reads
(R366) both go through `State.readReg`. -/

namespace Sys2Proof.Machine

/-- The value of the register at a byte offset that is a multiple of 4 (R40), with a given STATUS.BUSY. A
write-only or reserved offset reads 0 (R61). -/
def State.readReg (s : State) (busy : Bool) (off : Nat) : Word :=
  if 0x050 ≤ off ∧ off < 0x090 then
    -- SEL_SCORE_LO[m] at 0x050 + 8m, SEL_SCORE_HI[m] at 0x054 + 8m (R40, R65)
    let m : Fin 8 := Fin.ofNat 8 ((off - 0x050) / 8)
    if (off - 0x050) % 8 < 4 then s.sel.selScore[m].setWidth 32
    else (s.sel.selScore[m] >>> 32).setWidth 32
  else if 0x0C0 ≤ off ∧ off < 0x100 then
    -- R[k] at 0x0C0 + 4k (R22)
    s.reg (Fin.ofNat 16 ((off - 0x0C0) / 4))
  else
    match off with
    | 0x000 => Config.idWord
    | 0x004 => s.statusWith busy
    | 0x008 => s.error.code.code.setWidth 32
    | 0x00C => s.error.cmd
    | 0x010 => s.error.info
    | 0x014 => s.error.cnt
    | 0x018 => s.cmdCnt
    | 0x01C => s.cfg
    | 0x020 => s.mx.side.setWidth 32
    | 0x024 => wordOf s.bb.length
    | 0x028 => s.cw.len.setWidth 32
    | 0x02C => s.score.pen1
    | 0x030 => s.score.pen2
    | 0x034 => s.score.pen3
    | 0x038 => s.score.pen4num
    | 0x03C => s.score.dark.setWidth 32
    | 0x040 => s.score.score.setWidth 32
    | 0x044 => (s.score.score >>> 32).setWidth 32
    | 0x048 => s.sel.bestMask.setWidth 32
    | _ => 0

/-- The offset is one that rule R40's table lists: not reserved. -/
def offsetListed (off : Nat) : Bool :=
  decide (off ≤ 0x048) || (decide (0x050 ≤ off) && decide (off < 0x090))
    || (decide (0x0C0 ≤ off) && decide (off ≤ 0x104))

end Sys2Proof.Machine
end

