-- ==== Sys2Proof/Machine/Bus.lean ====
section
/-! DEFINITION. The host's side of the block: the bus decode (R61), the CMD and CTRL writes (R43, R63, R337),
register reads while idle and while busy (R62, R367), and the reset pin (R362). -/

namespace Sys2Proof.Machine

/-- Address bits [11:2] select the register (R61): the byte offset of the word that an access at a bus address
selects, or none when the address is outside the block's 4 KiB window (assumption 7). -/
def State.select (s : State) (addr : Nat) : Option Nat :=
  if s.inst.blockBase ≤ addr ∧ addr < s.inst.blockBase + Config.windowBytes then
    some ((addr - s.inst.blockBase) / 4 * 4)
  else none

/-- Writing word w to CMD (R63): discarded while halted (R335); refused while busy, to be recorded as CMD_OVERRUN
when the command in execution has ended (R337), the first such word being the one kept (assumption 8);
otherwise accepted, and BUSY becomes 1. -/
def State.writeCmd (s : State) (w : Word) : State :=
  if s.error.err then s
  else if s.busy then
    match s.overrun with
    | none => { s with overrun := some w }
    | some _ => s
  else { s with cmd := w, busy := true }

/-- Writing CTRL (R43, R361): bit 0 = 1 performs the soft reset, in every state; bits [31:1] are ignored. -/
def State.writeCtrl (s : State) (w : Word) : State := if w.getLsbD 0 then s.resetBlock else s

/-- A host write (R61, R62): it has an effect only at CMD and CTRL, and none while RST_N = 0 (R362). -/
def State.busWrite (s : State) (addr : Nat) (w : Word) : State :=
  if s.outside.rstN = false then s
  else
    match s.select addr with
    | none => s
    | some off => if off = 0x100 then s.writeCmd w else if off = 0x104 then s.writeCtrl w else s

/-- A read made while BUSY = 1 of this offset draws a free value: every listed register (R367; assumption 5). -/
def State.drawsAt (s : State) (off : Nat) : Bool := s.busy && offsetListed off

/-- The word a host read of an offset returns (R40, R61, R367): while BUSY = 1, STATUS returns BUSY = 1 with its
other fields free, any other register returns a free value, and a reserved offset still reads 0. -/
def State.readValue (s : State) (off : Nat) : Word :=
  if s.drawsAt off then
    if off = 0x004 then Config.freeBusRead s.outside.draws ||| 1 else Config.freeBusRead s.outside.draws
  else s.readReg s.busy off

/-- A host read: the value goes to the host, and no state of the block changes (R62). -/
def State.busRead (s : State) (addr : Nat) : State :=
  match s.select addr with
  | none => s
  | some off =>
    { s with
      outside :=
        { s.outside with
          readData := some (s.readValue off)
          draws := s.outside.draws + (s.drawsAt off).toNat } }

/-- The platform drives RST_N (R362): at 0 the block is held in the reset state of rule R360; at 1 it is idle. -/
def State.setRstN (s : State) (level : Bool) : State :=
  let o := { s.outside with rstN := level }
  if level then { s with outside := o } else State.resetOf s.inst o

/-- The turns still to come, less the one being taken. -/
def State.popTurn (s : State) : State := { s with outside := { s.outside with turns := s.outside.turns.tail } }

/-- The instruction stored where the next step takes it from: the word is in execution and the next turn is the
block's, as after the host's CMD write of it (R63; assumption 2). -/
def State.fetching (s : State) (w : Word) : State :=
  { s with cmd := w, busy := true, outside := { s.outside with turns := [] } }

end Sys2Proof.Machine
end

