-- ==== Sys2Proof/Machine/Control.lean ====
section
/-! DEFINITION. The control, scalar and configuration commands (40_control.md). -/

namespace Sys2Proof.Machine

/-- NOP (R101): nothing. -/
def execNop (s : State) : Outcome := s.finish (.ok s)

/-- LI (R102): R[rd] <- sext_32(imm16). -/
def execLi (rd : Reg) (imm : BitVec 16) (s : State) : Outcome := s.finish (.ok (s.setReg rd (sext32 imm)))

/-- ADD (R103): R[rd] <- (uint(R[ra]) + uint(R[rb])) mod 2^32. -/
def execAdd (rd ra rb : Reg) (s : State) : Outcome := s.finish (.ok (s.setReg rd (s.reg ra + s.reg rb)))

/-- SUB (R104): R[rd] <- (uint(R[ra]) - uint(R[rb])) mod 2^32. -/
def execSub (rd ra rb : Reg) (s : State) : Outcome := s.finish (.ok (s.setReg rd (s.reg ra - s.reg rb)))

/-- XOR (R105): R[rd] <- R[ra] ⊕ R[rb]. -/
def execXor (rd ra rb : Reg) (s : State) : Outcome := s.finish (.ok (s.setReg rd (s.reg ra ^^^ s.reg rb)))

/-- RDSR (R106): R[rd] <- the register-map value at the offset, before this command, STATUS.BUSY read as 0. -/
def execRdsr (rd : Reg) (off : BitVec 16) (s : State) : Outcome :=
  s.finish (.ok (s.setReg rd (s.readReg false (immNat off))))

/-- SETVER (R107): BAD_PARAMETER above 40; else VER is set, the matrix dropped and the stream invalidated. -/
def execSetver (imm : BitVec 16) (s : State) : Outcome :=
  s.finish <|
    raiseIf (40 < immNat imm) { code := .badParameter, info := zext32 imm } <|
      .ok { s with conf := { s.conf with ver := BitVec.ofNat 6 (immNat imm) } }.dropMatrix.invalidateStream

/-- SETECL (R108): BAD_PARAMETER above 3; else ECL is set, the matrix dropped and the stream invalidated. -/
def execSetecl (imm : BitVec 16) (s : State) : Outcome :=
  s.finish <|
    raiseIf (3 < immNat imm) { code := .badParameter, info := zext32 imm } <|
      .ok { s with conf := { s.conf with ecl := BitVec.ofNat 2 (immNat imm) } }.dropMatrix.invalidateStream

/-- SETMASK (R109): BAD_PARAMETER above 7; else MASK is set and the matrix dropped. CW_READY stays. -/
def execSetmask (imm : BitVec 16) (s : State) : Outcome :=
  s.finish <|
    raiseIf (7 < immNat imm) { code := .badParameter, info := zext32 imm } <|
      .ok { s with conf := { s.conf with mask := BitVec.ofNat 3 (immNat imm) } }.dropMatrix

/-- LUI (R111): R[rd] <- zext_32(imm16) << 16. -/
def execLui (rd : Reg) (imm : BitVec 16) (s : State) : Outcome := s.finish (.ok (s.setReg rd (upper32 imm)))

end Sys2Proof.Machine
end

