-- ==== Sys2Proof/Machine/Bch.lean ====
section
/-! DEFINITION. The BCH format-info and version-info encoder (46_bch.md): division over GF(2) by leading-bit
alignment, not over GF(256). -/

namespace Sys2Proof.Machine

/-- `bitlen(x)` (R242): the index of the highest set bit, plus 1; 0 for 0. -/
def bitlen (x : Nat) : Nat := if x = 0 then 0 else x.log2 + 1

/-- The loop of `bchrem` (R242), with fuel: each pass clears the top bit of d, so bitlen(d) passes are enough. -/
def bchLoop (g : Nat) : Nat → Nat → Nat
  | 0, d => d
  | fuel + 1, d =>
    if bitlen d < bitlen g then d
    else bchLoop g fuel (d ^^^ g <<< (bitlen d - bitlen g))

/-- `bchrem(x, G)` (R242). -/
def bchRem (x g : Nat) : Nat := bchLoop g (bitlen x) x

/-- `bchFmt(data)` (R243). -/
def bchFmtWord (data : Nat) : Nat := (data <<< 10 ||| bchRem (data <<< 10) g15) ^^^ g15Mask

/-- `bchVer(data)` (R244). -/
def bchVerWord (data : Nat) : Nat := data <<< 12 ||| bchRem (data <<< 12) g18

/-- The format-info word of a level and a mask: bchFmt(FMTBITS[ECL] << 3 | MASK) (R265). -/
def formatWord (e m : Nat) : Nat := bchFmtWord (fmtBits e <<< 3 ||| m)

/-- BCH_FMT (R245): R[rd] <- bchFmt(x) with x = uint(R[ra]); BAD_PARAMETER(x) above 31. -/
def execBchFmt (rd ra : Reg) (s : State) : Outcome :=
  s.finish <|
    raiseIf (31 < s.uintReg ra) { code := .badParameter, info := s.reg ra } <|
      .ok (s.setReg rd (wordOf (bchFmtWord (s.uintReg ra))))

/-- BCH_VER (R246): R[rd] <- bchVer(x) with x = uint(R[ra]); BAD_PARAMETER(x) above 63. -/
def execBchVer (rd ra : Reg) (s : State) : Outcome :=
  s.finish <|
    raiseIf (63 < s.uintReg ra) { code := .badParameter, info := s.reg ra } <|
      .ok (s.setReg rd (wordOf (bchVerWord (s.uintReg ra))))

end Sys2Proof.Machine
end

