-- ==== Sys2Proof/Machine/BitBuffer.lean ====
section
/-! DEFINITION. The bit buffer (43_bitbuffer.md). BB is the list of its bits, bit 0 first; BBLEN is its length. -/

namespace Sys2Proof.Machine

/-- The low n bits of v, most significant first (R170). -/
def putBits (v : Nat) : Nat → List Bool
  | 0 => []
  | n + 1 => v.testBit n :: putBits v n

/-- `put(v, n)` (R170): CAPACITY_EXCEEDED(BBLEN + n) when the buffer would pass 23648 bits. -/
def bbPut (bb : List Bool) (v n : Nat) : Except CmdError (List Bool) :=
  raiseIf (Config.bbMaxBits < bb.length + n) { code := .capacityExceeded, info := wordOf (bb.length + n) } <|
    .ok (bb ++ putBits v n)

/-- The unsigned number whose bits are the list, most significant first. -/
def bitsValue (l : List Bool) : Nat := l.foldl (fun a b => 2 * a + b.toNat) 0

/-- The number of bytes of the buffer, ⌈BBLEN/8⌉ (R171). -/
def byteCount (bb : List Bool) : Nat := (bb.length + 7) / 8

/-- `byte(k)` (R171): stream bit 8k + i is bit 7 - i; bits at BBLEN and above read 0. -/
def bbByte (bb : List Bool) (k : Nat) : Byte :=
  BitVec.ofNat 8 (bitsValue ((List.range 8).map fun i => bb.getD (8 * k + i) false))

/-- The data capacity in codewords: `cap(v, e)` = Σ dataCount (R210). -/
def capOf (v e : Nat) : Nat := ((blockRow v e).map fun g => g.count * g.data).sum

/-- `cap(VER, ECL)` (R210). -/
def State.cap (s : State) : Nat := capOf s.conf.ver.toNat s.conf.ecl.toNat

/-- PAD0 = 0xEC when false, PAD1 = 0x11 when true (R178). -/
def padByte (second : Bool) : Nat := if second then 0x11 else 0xEC

/-- n pad bytes, alternating, beginning with the one named (R178, R179). -/
def padBits : Nat → Bool → List Bool
  | 0, _ => []
  | n + 1, second => putBits (padByte second) 8 ++ padBits n (!second)

/-- The terminator: 4 zero bits when at least 4 bits of room remain (R179). -/
def addTerminator (c : Nat) (bb : List Bool) : List Bool :=
  if bb.length + 4 ≤ c then bb ++ putBits 0 4 else bb

/-- The zero bits up to a byte boundary (R179). -/
def padToByte (bb : List Bool) : List Bool := bb ++ List.replicate ((8 - bb.length % 8) % 8) false

/-- The pad bytes that fill the capacity c, a multiple of 8 (R179). -/
def fillPads (c : Nat) (bb : List Bool) : List Bool := bb ++ padBits ((c - bb.length) / 8) false

/-- `final(c)` (R179): CAPACITY_EXCEEDED(BBLEN) when BBLEN > c. -/
def bbFinish (c : Nat) (bb : List Bool) : Except CmdError (List Bool) :=
  raiseIf (c < bb.length) { code := .capacityExceeded, info := wordOf bb.length } <|
    .ok (fillPads c (padToByte (addTerminator c bb)))

/-- The buffer with new contents; every command that writes BB clears CW_READY (R26). -/
def State.setBuffer (s : State) (bb : List Bool) : State := { s with bb := bb }.invalidateStream

/-- BB_CLR (R172): BB <- empty; CW_READY <- 0. -/
def execBbClr (s : State) : Outcome := s.finish (.ok (s.setBuffer []))

/-- BB_PUT (R173): put(zext_32(imm16), n); CW_READY <- 0. -/
def execBbPut (n : BitVec 5) (imm : BitVec 16) (s : State) : Outcome :=
  s.finish do
    let bb ← bbPut s.bb (immNat imm) n.toNat
    .ok (s.setBuffer bb)

/-- BB_PUTR (R174): put(uint(R[ra]), n); CW_READY <- 0. -/
def execBbPutr (ra : Reg) (n : BitVec 16) (s : State) : Outcome :=
  s.finish do
    let bb ← bbPut s.bb (s.uintReg ra) (immNat n)
    .ok (s.setBuffer bb)

/-- BB_GETBIT (R175): R[rd] <- BBit(k) with k = uint(R[ra]). -/
def execBbGetbit (rd ra : Reg) (s : State) : Outcome :=
  s.finish <|
    raiseIf (s.bb.length ≤ s.uintReg ra) { code := .outOfRangeAccess, info := s.reg ra } <|
      .ok (s.setReg rd (wordOf (s.bb.getD (s.uintReg ra) false).toNat))

/-- BB_GETBYTE (R176): R[rd] <- byte(k) with k = uint(R[ra]). -/
def execBbGetbyte (rd ra : Reg) (s : State) : Outcome :=
  s.finish <|
    raiseIf (byteCount s.bb ≤ s.uintReg ra) { code := .outOfRangeAccess, info := s.reg ra } <|
      .ok (s.setReg rd ((bbByte s.bb (s.uintReg ra)).setWidth 32))

/-- BB_FINAL (R177): final(cap(VER, ECL) × 8); CW_READY <- 0. Requires VER ≠ 0. -/
def execBbFinal (s : State) : Outcome :=
  s.finish <|
    s.needVer do
      let bb ← bbFinish (s.cap * 8) s.bb
      .ok (s.setBuffer bb)

end Sys2Proof.Machine
end

