-- ==== Sys2Proof/Machine/Gf.lean ====
section
/-! DEFINITION. The GF(256) engine (41_gf.md): the functions `glog` and `gexp`, and the four GF commands. -/

namespace Sys2Proof.Machine

/-- `glog(n)` (R122): GF_DOMAIN(n mod 2^32) unless 1 ≤ n ≤ 255. -/
def glog (n : Nat) : Except CmdError Nat :=
  raiseIf (n < 1 ∨ 255 < n) { code := .gfDomain, info := wordOf n } (.ok (logAt n))

/-- `gexp(n)` (R123): EXP[n mod 255], the residue in 0..254 also for n < 0. -/
def gexp (n : Int) : Byte := expAt (n % 255).toNat

/-- The product the block forms through its tables: `gexp(glog(a) + glog(b))`, the domain of a checked before
that of b (R124, R128). -/
def gfProduct (a b : Nat) : Except CmdError Byte := do
  let la ← glog a
  let lb ← glog b
  .ok (gexp (la + lb))

/-- GF_EXP (R125): R[rd] <- gexp(sint(R[ra])). -/
def execGfExp (rd ra : Reg) (s : State) : Outcome :=
  s.finish (.ok (s.setReg rd ((gexp (sint (s.reg ra))).setWidth 32)))

/-- GF_EXPI (R126): R[rd] <- gexp(sint(sext_32(imm16))). -/
def execGfExpi (rd : Reg) (imm : BitVec 16) (s : State) : Outcome :=
  s.finish (.ok (s.setReg rd ((gexp (sint (sext32 imm))).setWidth 32)))

/-- GF_LOG (R127): R[rd] <- glog(uint(R[ra])). -/
def execGfLog (rd ra : Reg) (s : State) : Outcome :=
  s.finish do
    let l ← glog (s.uintReg ra)
    .ok (s.setReg rd (wordOf l))

/-- GF_MUL (R128): R[rd] <- gexp(glog(a) + glog(b)) with a = uint(R[ra]), b = uint(R[rb]). -/
def execGfMul (rd ra rb : Reg) (s : State) : Outcome :=
  s.finish do
    let p ← gfProduct (s.uintReg ra) (s.uintReg rb)
    .ok (s.setReg rd (p.setWidth 32))

end Sys2Proof.Machine
end

