-- ==== Sys2Proof/Machine/Poly.lean ====
section
/-! DEFINITION. The polynomial unit (42_poly.md). A polynomial is its coefficient sequence, most significant
term first (R23). -/

namespace Sys2Proof.Machine

/-- `strip(s)` (R8): every leading 0 removed. -/
def strip (q : List Byte) : List Byte := q.dropWhile fun c => c == 0

/-- `zeros(n)` (R8). -/
def zeros (n : Nat) : List Byte := List.replicate n 0

/-- MALFORMED_POLYNOMIAL(0) (R332). -/
def malformed : CmdError := { code := .malformedPolynomial, info := 0 }
/-- RESOURCE_OVERFLOW with the length that would have resulted (R332). -/
def overflow (n : Nat) : CmdError := { code := .resourceOverflow, info := wordOf n }

/-- `Poly(num, shift)` (R140). -/
def polyNew (num : List Byte) (shift : Nat) : Except CmdError (List Byte) :=
  raiseIf (num.length = 0) malformed <|
    let r := strip num ++ zeros shift
    raiseIf (Config.pMax < r.length) (overflow r.length) (.ok r)

/-- The inner loop of rule R141: r[k + j] <- r[k + j] ⊕ gexp(glog(x) + glog(b[j])) for each j. -/
def mulRow (x : Byte) : List Byte → Nat → List Byte → Except CmdError (List Byte)
  | [], _, r => .ok r
  | y :: ys, k, r => do
    let p ← gfProduct x.toNat y.toNat
    mulRow x ys (k + 1) (r.modify k (· ^^^ p))

/-- The outer loop of rule R141, over the coefficients of a from position k on. -/
def mulRows (b : List Byte) : List Byte → Nat → List Byte → Except CmdError (List Byte)
  | [], _, r => .ok r
  | x :: xs, k, r => do
    let r' ← mulRow x b k r
    mulRows b xs (k + 1) r'

/-- `multiply(a, b)` (R141). -/
def polyMul (a b : List Byte) : Except CmdError (List Byte) :=
  raiseIf (a.length = 0 ∨ b.length = 0) malformed <|
    let n := a.length + b.length - 1
    raiseIf (Config.pMax < n) (overflow n) do
      let r ← mulRows b a 0 (zeros n)
      polyNew r 0

/-- One pass of rule R142's loop: num[i] <- num[i] ⊕ gexp(glog(b[i]) + ratio) for each i below len(b). -/
def subScaled (ratio : Int) : List Byte → List Byte → Except CmdError (List Byte)
  | num, [] => .ok num
  | [], _ :: _ => .ok []
  | c :: num, y :: b => do
    let ly ← glog y.toNat
    let rest ← subScaled ratio num b
    .ok ((c ^^^ gexp (ly + ratio)) :: rest)

/-- The loop of rule R142, with fuel: each pass shortens a by at least 1, so len(a) passes are enough. -/
def modLoop (b : List Byte) : Nat → List Byte → Except CmdError (List Byte)
  | 0, a => .ok a
  | fuel + 1, a =>
    if a.length < b.length then .ok a
    else do
      let la ← glog (a.headD 0).toNat
      let lb ← glog (b.headD 0).toNat
      let num ← subScaled ((la : Int) - (lb : Int)) a b
      modLoop b fuel (strip num)

/-- `mod(a, b)` (R142). -/
def polyMod (a b : List Byte) : Except CmdError (List Byte) :=
  raiseIf (b.length = 0) malformed (modLoop b a.length a)

/-- The loop of rule R143: g <- multiply(g, [1, gexp(i)]) for each i below n. -/
def genLoop : Nat → Except CmdError (List Byte)
  | 0 => .ok [1]
  | n + 1 => do
    let g ← genLoop n
    polyMul g [1, gexp n]

/-- `gen(n)` (R143). -/
def polyGen (n : Nat) : Except CmdError (List Byte) :=
  raiseIf (Config.pMax - 1 < n) (overflow n) (genLoop n)

/-- Appending one coefficient: RESOURCE_OVERFLOW(PMAX + 1) on a full register (R145, R146). -/
def polyPush (q : List Byte) (c : Byte) : Except CmdError (List Byte) :=
  raiseIf (q.length = Config.pMax) (overflow (Config.pMax + 1)) (.ok (q ++ [c]))

/-- P_CLR (R144): P[pd] <- []. -/
def execPClr (pd : PReg) (s : State) : Outcome := s.finish (.ok (s.setPoly pd []))

/-- P_PUSHI (R145): P[pd] <- P[pd] ++ [imm8]. -/
def execPPushi (pd : PReg) (imm : Byte) (s : State) : Outcome :=
  s.finish do
    let q ← polyPush (s.poly pd) imm
    .ok (s.setPoly pd q)

/-- P_PUSH (R146): P[pd] <- P[pd] ++ [R[ra]]; BAD_PARAMETER first when R[ra] > 255. -/
def execPPush (pd : PReg) (ra : Reg) (s : State) : Outcome :=
  s.finish <|
    raiseIf (255 < s.uintReg ra) { code := .badParameter, info := s.reg ra } do
      let q ← polyPush (s.poly pd) ((s.reg ra).setWidth 8)
      .ok (s.setPoly pd q)

/-- P_NORM (R147): P[pd] <- Poly(P[pd], zext_32(imm16)). -/
def execPNorm (pd : PReg) (shift : BitVec 16) (s : State) : Outcome :=
  s.finish do
    let q ← polyNew (s.poly pd) (immNat shift)
    .ok (s.setPoly pd q)

/-- P_COPY (R148): P[pd] <- P[pa]. -/
def execPCopy (pd pa : PReg) (s : State) : Outcome := s.finish (.ok (s.setPoly pd (s.poly pa)))

/-- P_MUL (R149): P[pd] <- multiply(P[pa], P[pb]). -/
def execPMul (pd pa pb : PReg) (s : State) : Outcome :=
  s.finish do
    let q ← polyMul (s.poly pa) (s.poly pb)
    .ok (s.setPoly pd q)

/-- P_MOD (R150): P[pd] <- mod(P[pa], P[pb]). -/
def execPMod (pd pa pb : PReg) (s : State) : Outcome :=
  s.finish do
    let q ← polyMod (s.poly pa) (s.poly pb)
    .ok (s.setPoly pd q)

/-- P_GEN (R151): P[pd] <- gen(uint(R[ra])). -/
def execPGen (pd : PReg) (ra : Reg) (s : State) : Outcome :=
  s.finish do
    let q ← polyGen (s.uintReg ra)
    .ok (s.setPoly pd q)

/-- P_LEN (R152): R[rd] <- len(P[pa]). -/
def execPLen (rd : Reg) (pa : PReg) (s : State) : Outcome :=
  s.finish (.ok (s.setReg rd (wordOf (s.poly pa).length)))

/-- P_GET (R153): R[rd] <- P[pa][k] with k = uint(R[rb]); OUT_OF_RANGE_ACCESS(k) at or past the length. -/
def execPGet (rd : Reg) (pa : PReg) (rb : Reg) (s : State) : Outcome :=
  s.finish <|
    raiseIf ((s.poly pa).length ≤ s.uintReg rb) { code := .outOfRangeAccess, info := s.reg rb } <|
      .ok (s.setReg rd (((s.poly pa).getD (s.uintReg rb) 0).setWidth 32))

end Sys2Proof.Machine
end

