-- ==== Sys2Proof/Machine/Blocks.lean ====
section
/-! DEFINITION. The block table, the Reed-Solomon codewords and their interleaving (45_blocks_rs.md). -/

namespace Sys2Proof.Machine

/-- `blocks(v, e)` (R210): the descriptors of the row, each group repeated its count times. -/
def blocksOf (v e : Nat) : List BlockGroup :=
  (blockRow v e).flatMap fun g => List.replicate g.count g

/-- `total(v)` (R210): Σ totalCount. It is the same for all four levels, so LOW's row is summed (assumption 9). -/
def totalOf (v : Nat) : Nat := ((blockRow v 0).map fun g => g.count * g.total).sum

/-- `ec(v, e)` (R210): totalCount − dataCount, the same for every block of the row. -/
def ecOf (v e : Nat) : Nat :=
  match blockRow v e with
  | [] => 0
  | g :: _ => g.total - g.data

/-- The number of blocks of `blocks(v, e)` (R212). -/
def blockCount (v e : Nat) : Nat := ((blockRow v e).map fun g => g.count).sum

/-- The side of a symbol (R257): 4v + 17. -/
def sideOf (v : Nat) : Nat := 4 * v + 17

/-- OUT_OF_RANGE_ACCESS with a refused index that is a number (R332). -/
def outOfRange (k : Nat) : CmdError := { code := .outOfRangeAccess, info := wordOf k }

/-- A field of group k of a row: k must be below the number of groups (R212). -/
def groupField (row : List BlockGroup) (k : Nat) (f : BlockGroup → Nat) : Except CmdError Nat :=
  raiseIf (row.length ≤ k) (outOfRange k) <| .ok (f (row.getD k ⟨0, 0, 0⟩))

/-- The value of a selector of TBL_Q (R212) for a version 1..40, a level and an index. A selector above 11 is no
command (R213): no word stands for it, and it is refused as one. -/
def tblValue (v e sel k : Nat) : Except CmdError Nat :=
  match sel with
  | 0 => .ok (capOf v e)
  | 1 => .ok (totalOf v)
  | 2 => .ok (blockCount v e)
  | 3 => .ok (ecOf v e)
  | 4 => .ok (blockRow v e).length
  | 5 => groupField (blockRow v e) k (·.count)
  | 6 => groupField (blockRow v e) k (·.total)
  | 7 => groupField (blockRow v e) k (·.data)
  | 8 => .ok (alignPos v).length
  | 9 => raiseIf ((alignPos v).length ≤ k) (outOfRange k) <| .ok ((alignPos v).getD k 0)
  | 10 => .ok (remainderBits v)
  | 11 => .ok (sideOf v)
  | _ => .error illegalCommand

/-- byte(0), …, byte(n − 1) of the bit buffer (R171, R214), in one pass. -/
def bytesOf : Nat → List Bool → List Byte
  | 0, _ => []
  | n + 1, bb => bbByte bb 0 :: bytesOf n (bb.drop 8)

/-- The block split (R214): consecutive runs of the data, one per block. -/
def splitData : List BlockGroup → List Byte → List (List Byte)
  | [], _ => []
  | b :: bs, d => d.take b.data :: splitData bs (d.drop b.data)

/-- The remainder's coefficients right-justified into n codewords (R215). -/
def rightJustify (n : Nat) (rem : List Byte) : List Byte :=
  (List.range n).map fun i => if n ≤ i + rem.length then rem.getD (i + rem.length - n) 0 else 0

/-- `ecwords(d, n)` (R215). -/
def ecWords (d : List Byte) (n : Nat) : Except CmdError (List Byte) := do
  let raw ← polyNew d n
  let g ← polyGen n
  let rem ← polyMod raw g
  .ok (rightJustify n rem)

/-- The error-correction codewords of every block, in order (R217). -/
def ecAll (n : Nat) : List (List Byte) → Except CmdError (List (List Byte))
  | [] => .ok []
  | d :: ds => do
    let e ← ecWords d n
    let es ← ecAll n ds
    .ok (e :: es)

/-- Column-major emission of the first m columns of the blocks; a block shorter than a column is skipped (R216). -/
def columns (m : Nat) (blocks : List (List Byte)) : List Byte :=
  (List.range m).flatMap fun i => blocks.filterMap fun b => b[i]?

/-- The interleaved stream: the data codewords, then the error-correction codewords (R216). -/
def interleave (data ec : List (List Byte)) (n : Nat) : List Byte :=
  columns ((data.map List.length).foldl max 0) data ++ columns n ec

/-- The codeword stream of a buffer's data at a version and level (R214 to R217). -/
def codewordsOf (v e : Nat) (bb : List Bool) : Except CmdError (List Byte) := do
  let data := splitData (blocksOf v e) (bytesOf (capOf v e) bb)
  let ec ← ecAll (ecOf v e) data
  .ok (interleave data ec (ecOf v e))

/-- CWM[0..len(S) − 1] <- S; CWLEN <- len(S); CW_READY <- 1 (R217). -/
def State.setStream (s : State) (S : List Byte) : State :=
  { s with
    cw := { cells := Memory.writeRun cwmUnwritten s.cw.cells 0 S, len := BitVec.ofNat 12 S.length, ready := true } }

/-- The valid codeword stream CWM[0..CWLEN − 1] (R26). -/
def State.stream (s : State) : List Byte := (List.range s.cw.len.toNat).map s.cwm

/-- TBL_Q (R213): R[rd] <- the value of selector sel for (R[ra], ECL, k); BAD_PARAMETER outside 1..40. -/
def execTblQ (rd ra : Reg) (sel k : Byte) (s : State) : Outcome :=
  s.finish <|
    raiseIf (s.uintReg ra < 1 ∨ Config.maxVer < s.uintReg ra) { code := .badParameter, info := s.reg ra } do
      let x ← tblValue (s.uintReg ra) s.conf.ecl.toNat sel.toNat k.toNat
      .ok (s.setReg rd (wordOf x))

/-- RS_ENCODE (R217). Requires VER ≠ 0; SEQUENCE_ERROR(BBLEN) unless BB holds exactly the data capacity. -/
def execRsEncode (s : State) : Outcome :=
  s.finish <|
    s.needVer <|
      raiseIf (s.bb.length ≠ s.cap * 8) { code := .sequenceError, info := wordOf s.bb.length } do
        let S ← codewordsOf s.conf.ver.toNat s.conf.ecl.toNat s.bb
        .ok (s.setStream S)

/-- CW_RD (R218): R[rd] <- CWM[k] with k = uint(R[ra]). Requires CW_READY = 1. -/
def execCwRd (rd ra : Reg) (s : State) : Outcome :=
  s.finish <|
    s.needStream <|
      raiseIf (s.cw.len.toNat ≤ s.uintReg ra) { code := .outOfRangeAccess, info := s.reg ra } <|
        .ok (s.setReg rd ((s.cwm (s.uintReg ra)).setWidth 32))

end Sys2Proof.Machine
end

