-- ==== Sys2Proof/Machine/MatrixBuilder.lean ====
section
/-! DEFINITION. The matrix builder (47_matrix.md): the function patterns, the data mapping, and the placement
commands with their build states. Every placement is a sequence of guarded writes `Set(r, c, dark)` (R256). -/

namespace Sys2Proof.Machine

/-! ### Finder patterns -/

/-- The whole numbers from lo on, n of them: a loop's signed offsets. -/
def offsets (lo : Int) (n : Nat) : List Int := (List.range n).map fun (k : Nat) => lo + (k : Int)

/-- The dark rule of the finder stamp (R258). -/
def probeDark (r c : Int) : Bool :=
  (decide (0 ≤ r ∧ r ≤ 6) && decide (c = 0 ∨ c = 6))
    || (decide (0 ≤ c ∧ c ≤ 6) && decide (r = 0 ∨ r = 6))
    || (decide (2 ≤ r ∧ r ≤ 4) && decide (2 ≤ c ∧ c ≤ 4))

/-- `probe(R, C)` (R258): the writes of one finder stamp with its separator, cells outside the square skipped. -/
def probeWrites (n R C : Nat) : List (Nat × Nat × Bool) :=
  (offsets (-1) 9).flatMap fun r => (offsets (-1) 9).filterMap fun c =>
    if 0 ≤ (R : Int) + r ∧ (R : Int) + r < n ∧ 0 ≤ (C : Int) + c ∧ (C : Int) + c < n then
      some (((R : Int) + r).toNat, ((C : Int) + c).toNat, probeDark r c)
    else none

/-- The three finder stamps, at (0, 0), (n−7, 0) and (0, n−7) (R259). -/
def placeProbes (n : Nat) (g : Grid) : Grid :=
  gridPlaceAll g (probeWrites n 0 0 ++ probeWrites n (n - 7) 0 ++ probeWrites n 0 (n - 7))

/-! ### Alignment patterns -/

/-- The dark rule of the alignment stamp (R261). -/
def alignDark (r c : Int) : Bool := decide (r.natAbs = 2 ∨ c.natAbs = 2 ∨ (r = 0 ∧ c = 0))

/-- The writes of one alignment stamp (R261). -/
def alignWrites (R C : Nat) : List (Nat × Nat × Bool) :=
  (offsets (-2) 5).flatMap fun r => (offsets (-2) 5).map fun c =>
    (((R : Int) + r).toNat, ((C : Int) + c).toNat, alignDark r c)

/-- `align(R, C)` (R261): skipped when the centre is already set. -/
def placeAlignAt (g : Grid) (R C : Nat) : Grid :=
  if gridGet g R C ≠ .unset then g else gridPlaceAll g (alignWrites R C)

/-- The alignment patterns at every pair of positions, rows then columns ascending (R262). -/
def placeAlign (v : Nat) (g : Grid) : Grid :=
  (alignPos v).foldl (fun g R => (alignPos v).foldl (fun g C => placeAlignAt g R C) g) g

/-! ### Timing patterns -/

/-- `timing()` (R263): column 6 and row 6, dark when the running index is even; set cells keep their value. -/
def placeTiming (n : Nat) (g : Grid) : Grid :=
  gridPlaceAll g ((List.range n).flatMap fun i => [(i, 6, decide (i % 2 = 0)), (6, i, decide (i % 2 = 0))])

/-! ### Format and version information -/

/-- A(i) (R265). -/
def posA (n i : Nat) : Nat × Nat :=
  if i ≤ 5 then (i, 8) else if i ≤ 7 then (i + 1, 8) else (n - 15 + i, 8)

/-- B(i) (R265). -/
def posB (n i : Nat) : Nat × Nat :=
  if i ≤ 7 then (8, n - 1 - i) else if i = 8 then (8, 7) else (8, 14 - i)

/-- The format information of the word w, and the dark module (n − 8, 8); all LIGHT in a test build (R266, R267). -/
def placeTypeInfo (n w : Nat) (t : Bool) (g : Grid) : Grid :=
  gridPlaceAll g
    (((List.range 15).flatMap fun i =>
      let v := !t && w.testBit i
      [((posA n i).1, (posA n i).2, v), ((posB n i).1, (posB n i).2, v)]) ++ [(n - 8, 8, !t)])

/-- V1(i) (R268). -/
def posV1 (n i : Nat) : Nat × Nat := (i / 3, n - 11 + i % 3)

/-- V2(i) (R268). -/
def posV2 (n i : Nat) : Nat × Nat := (n - 11 + i % 3, i / 3)

/-- The version information, from version 7 on; all LIGHT in a test build (R268, R269). -/
def placeTypeNum (v n : Nat) (t : Bool) (g : Grid) : Grid :=
  if 7 ≤ v then
    gridPlaceAll g
      ((List.range 18).flatMap fun i =>
        let b := !t && (bchVerWord v).testBit i
        [((posV1 n i).1, (posV1 n i).2, b), ((posV2 n i).1, (posV2 n i).2, b)])
  else g

/-! ### Data mapping -/

/-- `maskf(m, i, j)` (R300): true when the data bit at row i, column j is inverted. -/
def maskf (m i j : Nat) : Bool :=
  match m with
  | 0 => decide ((i + j) % 2 = 0)
  | 1 => decide (i % 2 = 0)
  | 2 => decide (j % 3 = 0)
  | 3 => decide ((i + j) % 3 = 0)
  | 4 => decide ((i / 2 + j / 3) % 2 = 0)
  | 5 => decide (i * j % 2 + i * j % 3 = 0)
  | 6 => decide ((i * j % 2 + i * j % 3) % 2 = 0)
  | _ => decide ((i * j % 3 + (i + j) % 2) % 2 = 0)

/-- The right columns of the pairs the walk visits from a column on (R270), with fuel: "while col > 0: if col = 6:
col <- 5; …; col <- col - 2". -/
def pairColumns : Nat → Nat → List Nat
  | 0, _ => []
  | fuel + 1, col =>
    if col = 0 then []
    else if col = 6 then 5 :: pairColumns fuel 3
    else col :: pairColumns fuel (col - 2)

/-- The rows in the order a pair walks them: upward n−1 → 0, or downward 0 → n−1 (R270). -/
def pairRows (n : Nat) (up : Bool) : List Nat := if up then (List.range n).reverse else List.range n

/-- The cells of the pairs with the given right columns, the direction alternating, right cell first (R270). -/
def walkPairs (n : Nat) : Bool → List Nat → List (Nat × Nat)
  | _, [] => []
  | up, col :: cols => ((pairRows n up).flatMap fun row => [(row, col), (row, col - 1)]) ++ walkPairs n (!up) cols

/-- The cells of the n × n square in the order of the mapping walk (R270). -/
def walk (n : Nat) : List (Nat × Nat) := walkPairs n true (pairColumns n (n - 1))

/-- Each codeword from bit 7 to bit 0 (R66, R270). -/
def streamBits (S : List Byte) : List Bool := S.flatMap fun b => putBits b.toNat 8

/-- The walk's loop (R270): each UNSET cell takes the next bit (0 once the stream is exhausted), inverted where
the mask says so. -/
def mapCells (m : Nat) : List (Nat × Nat) → List Bool → Grid → Grid
  | [], _, g => g
  | (r, c) :: cells, bs, g =>
    if gridGet g r c = .unset then
      mapCells m cells bs.tail (gridSet g r c (.ofDark (xor (bs.headD false) (maskf m r c))))
    else mapCells m cells bs g

/-- `map(S, L, m)` (R270). -/
def mapData (n m : Nat) (S : List Byte) (g : Grid) : Grid := mapCells m (walk n) (streamBits S) g

/-! ### The commands -/

/-- SIDE as a number. -/
def State.side (s : State) : Nat := s.mx.side.toNat

/-- The matrix with new cells and a new build state. -/
def State.setGrid (s : State) (g : Grid) (m : MState) : State :=
  { s with mx := { s.mx with cells := g, mstate := m } }

/-- "if t = 1: MTEST <- 1" (R267, R269). -/
def State.markTest (s : State) (t : Bool) : State :=
  { s with mx := { s.mx with mtest := s.mx.mtest || t } }

/-- M_INIT (R257): SIDE <- 4·VER + 17, the square UNSET, MSTATE <- EMPTY, MTEST <- 0. Requires VER ≠ 0. -/
def execMInit (s : State) : Outcome :=
  s.finish <|
    s.needVer <|
      .ok
        { s with
          mx :=
            { cells := gridClear (sideOf s.conf.ver.toNat) s.mx.cells
              side := BitVec.ofNat 8 (sideOf s.conf.ver.toNat)
              mstate := .empty
              mtest := false } }

/-- M_PROBES (R259). Requires MSTATE = EMPTY. -/
def execMProbes (s : State) : Outcome :=
  s.finish <|
    s.needMState (s.mx.mstate = .empty) <|
      .ok (s.setGrid (placeProbes s.side s.mx.cells) .probes)

/-- M_ALIGN (R262). Requires MSTATE = PROBES. -/
def execMAlign (s : State) : Outcome :=
  s.finish <|
    s.needMState (s.mx.mstate = .probes) <|
      .ok (s.setGrid (placeAlign s.conf.ver.toNat s.mx.cells) .align)

/-- M_TIMING (R264). Requires MSTATE = ALIGN. -/
def execMTiming (s : State) : Outcome :=
  s.finish <|
    s.needMState (s.mx.mstate = .align) <|
      .ok (s.setGrid (placeTiming s.side s.mx.cells) .timing)

/-- M_TYPEINFO t (R267). Requires MSTATE = TIMING. -/
def execMTypeinfo (t : Bool) (s : State) : Outcome :=
  s.finish <|
    s.needMState (s.mx.mstate = .timing) <|
      .ok ((s.setGrid
        (placeTypeInfo s.side (formatWord s.conf.ecl.toNat s.conf.mask.toNat) t s.mx.cells) .typeinfo).markTest t)

/-- M_TYPENUM t (R269). Requires MSTATE = TYPEINFO. -/
def execMTypenum (t : Bool) (s : State) : Outcome :=
  s.finish <|
    s.needMState (s.mx.mstate = .typeinfo) <|
      .ok ((s.setGrid (placeTypeNum s.conf.ver.toNat s.side t s.mx.cells) .typenum).markTest t)

/-- M_MAP (R271). Requires MSTATE = TYPENUM, or TYPEINFO with VER < 7, and CW_READY = 1. -/
def execMMap (s : State) : Outcome :=
  s.finish <|
    s.needMState (s.mx.mstate = .typenum ∨ (s.mx.mstate = .typeinfo ∧ s.conf.ver.toNat < 7)) <|
      s.needStream <|
        .ok (s.setGrid (mapData s.side s.conf.mask.toNat s.stream s.mx.cells) .mapped)

/-- M_READ (R272): R[rd] <- MAT[r][c] with r = uint(R[ra]), c = uint(R[rb]). Requires MSTATE ≠ NONE. -/
def execMRead (rd ra rb : Reg) (s : State) : Outcome :=
  s.finish <|
    s.needMState (s.mx.mstate ≠ .none) <|
      raiseIf (s.side ≤ s.uintReg ra ∨ s.side ≤ s.uintReg rb)
          { code := .outOfRangeAccess, info := rowColumn (s.reg ra) (s.reg rb) } <|
        .ok (s.setReg rd ((gridGet s.mx.cells (s.uintReg ra) (s.uintReg rb)).code.setWidth 32))

end Sys2Proof.Machine
end

