-- ==== Sys2Proof/Machine/MaskSelect.lean ====
section
/-! DEFINITION. The mask query, the penalty scoring, the one-command build and the mask selection
(48_mask_select.md). -/

namespace Sys2Proof.Machine

/-! ### Penalty rules -/

/-- The square as booleans, d(r, c) = 1 when MAT[r][c] = DARK (the text before R302). -/
def darkRows (n : Nat) (g : Grid) : List (List Bool) :=
  (List.range n).map fun r =>
    let row := Memory.read [] g r
    (List.range n).map fun c => decide (Memory.read .unset row c = .dark)

/-- d(r, c). -/
def darkAt (d : List (List Bool)) (r c : Nat) : Bool := (d.getD r []).getD c false

/-- The sum of f over the cells of the h × w rectangle at (0, 0). -/
def sumCells (h w : Nat) (f : Nat → Nat → Nat) : Nat :=
  ((List.range h).map fun r => ((List.range w).map fun c => f r c).sum).sum

/-- The in-bounds neighbours of a cell: (r + dr, c + dc), dr, dc ∈ {−1, 0, 1}, not both 0 (R302). -/
def neighbours (n r c : Nat) : List (Nat × Nat) :=
  (offsets (-1) 3).flatMap fun dr => (offsets (-1) 3).filterMap fun dc =>
    if ¬ (dr = 0 ∧ dc = 0) ∧ 0 ≤ (r : Int) + dr ∧ (r : Int) + dr < n ∧ 0 ≤ (c : Int) + dc ∧ (c : Int) + dc < n then
      some (((r : Int) + dr).toNat, ((c : Int) + dc).toNat)
    else none

/-- sameCount of a cell (R302). -/
def sameCount (d : List (List Bool)) (n r c : Nat) : Nat :=
  (neighbours n r c).countP fun p => darkAt d p.1 p.2 == darkAt d r c

/-- P1 (R302): a cell with more than 5 same-coloured neighbours adds 3 + same − 5. -/
def penalty1 (d : List (List Bool)) (n : Nat) : Nat :=
  sumCells n n fun r c => if 5 < sameCount d n r c then 3 + sameCount d n r c - 5 else 0

/-- P2 (R303): each uniform 2 × 2 block adds 3. -/
def penalty2 (d : List (List Bool)) (n : Nat) : Nat :=
  3 * sumCells (n - 1) (n - 1) fun r c =>
    (darkAt d r c == darkAt d (r + 1) c && darkAt d r c == darkAt d r (c + 1)
      && darkAt d r c == darkAt d (r + 1) (c + 1)).toNat

/-- The 7-cell pattern of rule R304. -/
def finderRun : List Bool := [true, false, true, true, true, false, true]

/-- P3 (R304): each horizontal or vertical match of the pattern adds 40. -/
def penalty3 (d : List (List Bool)) (n : Nat) : Nat :=
  40 * ((sumCells n (n - 6) fun r c =>
          ((List.range 7).all fun k => darkAt d r (c + k) == finderRun.getD k false).toNat)
        + sumCells (n - 6) n fun r c =>
          ((List.range 7).all fun k => darkAt d (r + k) c == finderRun.getD k false).toNat)

/-- D, the count of dark modules (R305). -/
def darkCount (d : List (List Bool)) (n : Nat) : Nat := sumCells n n fun r c => (darkAt d r c).toNat

/-- PEN4NUM = P4 · T (R305), from D and T. -/
def penalty4 (mode : Config.N4Mode) (D T : Nat) : Nat :=
  match mode with
  | .exact => ((200 * D : Int) - 100 * T).natAbs
  | .floor => 10 * (((20 * D : Int) - 10 * T).natAbs / T) * T

/-- The score registers of the n × n square (R302 to R307). -/
def scoreOf (mode : Config.N4Mode) (n : Nat) (g : Grid) : ScoreRegs :=
  let d := darkRows n g
  let p1 := penalty1 d n
  let p2 := penalty2 d n
  let p3 := penalty3 d n
  let p4 := penalty4 mode (darkCount d n) (n * n)
  { pen1 := wordOf p1
    pen2 := wordOf p2
    pen3 := wordOf p3
    pen4num := wordOf p4
    dark := BitVec.ofNat 15 (darkCount d n)
    score := BitVec.ofNat 64 ((p1 + p2 + p3) * (n * n) + p4) }

/-! ### Building and selecting -/

/-- The cells of `build(t, m)` (R308): the placements of rules R257 to R269 and the mapping, in order. -/
def buildCells (v e m : Nat) (t : Bool) (S : List Byte) (g : Grid) : Grid :=
  let n := sideOf v
  mapData n m S
    (placeTypeNum v n t
      (placeTypeInfo n (formatWord e m) t (placeTiming n (placeAlign v (placeProbes n (gridClear n g))))))

/-- The cells of `build(t, m)` at the state's configuration and stream (R308). -/
def State.built (s : State) (t : Bool) (m : Nat) : Grid :=
  buildCells s.conf.ver.toNat s.conf.ecl.toNat m t s.stream s.mx.cells

/-- The matrix that `build(t, m)` leaves: SIDE, MAT, MTEST <- t, MSTATE <- MAPPED (R308). -/
def State.buildMatrix (s : State) (t : Bool) (m : Nat) : Matrix :=
  { cells := s.built t m, side := BitVec.ofNat 8 (sideOf s.conf.ver.toNat), mstate := .mapped, mtest := t }

/-- The score of the test build under mask m (R310). -/
def State.trial (s : State) (m : Nat) : ScoreRegs :=
  scoreOf s.inst.n4Mode (sideOf s.conf.ver.toNat) (s.built true m)

/-- The selection rule (R309): best <- 0; for m in 1..7: if s[m] < s[best]: best <- m. -/
def selectMask (sc : List ScoreRegs) : Nat :=
  (List.range 8).foldl
    (fun best m =>
      if (sc.getD m ScoreRegs.reset).score < (sc.getD best ScoreRegs.reset).score then m else best) 0

/-- The effect of M_SELECT, given the eight trials (R310). -/
def State.selected (s : State) (trials : List ScoreRegs) : State :=
  let best := selectMask trials
  { s with
    sel :=
      { selScore := Vector.ofFn fun m : Fin 8 => (trials.getD m.val ScoreRegs.reset).score
        bestMask := BitVec.ofNat 3 best }
    conf := { s.conf with mask := BitVec.ofNat 3 best }
    score := trials.getD best ScoreRegs.reset
    mx := s.buildMatrix false best }

/-- MASKQ (R301): R[rd] <- maskf(MASK, i, j); OUT_OF_RANGE_ACCESS above 176, the row checked first. -/
def execMaskq (rd ra rb : Reg) (s : State) : Outcome :=
  s.finish <|
    raiseIf (Config.maxSide - 1 < s.uintReg ra) { code := .outOfRangeAccess, info := s.reg ra } <|
      raiseIf (Config.maxSide - 1 < s.uintReg rb) { code := .outOfRangeAccess, info := s.reg rb } <|
        .ok (s.setReg rd (wordOf (maskf s.conf.mask.toNat (s.uintReg ra) (s.uintReg rb)).toNat))

/-- M_SCORE (R307). Requires MSTATE = MAPPED or SCORED. -/
def execMScore (s : State) : Outcome :=
  s.finish <|
    s.needMState (s.mx.mstate = .mapped ∨ s.mx.mstate = .scored) <|
      .ok { s with
            score := scoreOf s.inst.n4Mode s.side s.mx.cells
            mx := { s.mx with mstate := .scored } }

/-- M_BUILD t (R308). Requires VER ≠ 0 and CW_READY = 1. -/
def execMBuild (t : Bool) (s : State) : Outcome :=
  s.finish <|
    s.needVer <|
      s.needStream <|
        .ok { s with mx := s.buildMatrix t s.conf.mask.toNat }

/-- M_SELECT (R310). Requires VER ≠ 0 and CW_READY = 1. -/
def execMSelect (s : State) : Outcome :=
  s.finish <|
    s.needVer <|
      s.needStream <|
        .ok (s.selected ((List.range 8).map s.trial))

end Sys2Proof.Machine
end

