-- ==== Sys2Proof/Machine/Dispatch.lean ====
section
/-! DEFINITION. The dispatch: one arm per command, one direct call of its meaning (R87). -/

namespace Sys2Proof.Machine

def exec (i : Instr) (s : State) : Host.Outcome State Fault Refusal :=
  match i with
  | .nop => Sys2Proof.Machine.execNop s
  | .li rd imm => Sys2Proof.Machine.execLi rd imm s
  | .add rd ra rb => Sys2Proof.Machine.execAdd rd ra rb s
  | .sub rd ra rb => Sys2Proof.Machine.execSub rd ra rb s
  | .xor rd ra rb => Sys2Proof.Machine.execXor rd ra rb s
  | .rdsr rd off => Sys2Proof.Machine.execRdsr rd off s
  | .setver imm => Sys2Proof.Machine.execSetver imm s
  | .setecl imm => Sys2Proof.Machine.execSetecl imm s
  | .setmask imm => Sys2Proof.Machine.execSetmask imm s
  | .lui rd imm => Sys2Proof.Machine.execLui rd imm s
  | .gfExp rd ra => Sys2Proof.Machine.execGfExp rd ra s
  | .gfExpi rd imm => Sys2Proof.Machine.execGfExpi rd imm s
  | .gfLog rd ra => Sys2Proof.Machine.execGfLog rd ra s
  | .gfMul rd ra rb => Sys2Proof.Machine.execGfMul rd ra rb s
  | .pClr pd => Sys2Proof.Machine.execPClr pd s
  | .pPushi pd imm => Sys2Proof.Machine.execPPushi pd imm s
  | .pPush pd ra => Sys2Proof.Machine.execPPush pd ra s
  | .pNorm pd shift => Sys2Proof.Machine.execPNorm pd shift s
  | .pCopy pd pa => Sys2Proof.Machine.execPCopy pd pa s
  | .pMul pd pa pb => Sys2Proof.Machine.execPMul pd pa pb s
  | .pMod pd pa pb => Sys2Proof.Machine.execPMod pd pa pb s
  | .pGen pd ra => Sys2Proof.Machine.execPGen pd ra s
  | .pLen rd pa => Sys2Proof.Machine.execPLen rd pa s
  | .pGet rd pa rb => Sys2Proof.Machine.execPGet rd pa rb s
  | .bbClr => Sys2Proof.Machine.execBbClr s
  | .bbPut n imm => Sys2Proof.Machine.execBbPut n imm s
  | .bbPutr ra n => Sys2Proof.Machine.execBbPutr ra n s
  | .bbGetbit rd ra => Sys2Proof.Machine.execBbGetbit rd ra s
  | .bbGetbyte rd ra => Sys2Proof.Machine.execBbGetbyte rd ra s
  | .bbFinal => Sys2Proof.Machine.execBbFinal s
  | .tblQ rd ra sel k => Sys2Proof.Machine.execTblQ rd ra sel k s
  | .rsEncode => Sys2Proof.Machine.execRsEncode s
  | .cwRd rd ra => Sys2Proof.Machine.execCwRd rd ra s
  | .bchFmt rd ra => Sys2Proof.Machine.execBchFmt rd ra s
  | .bchVer rd ra => Sys2Proof.Machine.execBchVer rd ra s
  | .mInit => Sys2Proof.Machine.execMInit s
  | .mProbes => Sys2Proof.Machine.execMProbes s
  | .mAlign => Sys2Proof.Machine.execMAlign s
  | .mTiming => Sys2Proof.Machine.execMTiming s
  | .mTypeinfo t => Sys2Proof.Machine.execMTypeinfo t s
  | .mTypenum t => Sys2Proof.Machine.execMTypenum t s
  | .mMap => Sys2Proof.Machine.execMMap s
  | .mRead rd ra rb => Sys2Proof.Machine.execMRead rd ra rb s
  | .maskq rd ra rb => Sys2Proof.Machine.execMaskq rd ra rb s
  | .mScore => Sys2Proof.Machine.execMScore s
  | .mBuild t => Sys2Proof.Machine.execMBuild t s
  | .mSelect => Sys2Proof.Machine.execMSelect s

end Sys2Proof.Machine
end

