-- ==== Sys2Proof/Machine/Step.lean ====
section
/-! DEFINITION. One step of the machine: the next turn, of the block or of the world outside it. -/

namespace Sys2Proof.Machine

/-- The command in execution is decoded and run as one atomic step, and a word refused meanwhile is then recorded
(R63, R68, R88, R337). -/
def runCommand (s : State) : Outcome :=
  match decode s.cmd with
  | .ok i => afterCommand (exec i s)
  | .error _ => afterCommand (.next (s.raised illegalCommand))

/-- The block's turn: the command in execution, if there is one; an idle block keeps its state (R344). -/
def blockTurn (s : State) : Outcome := if s.busy then runCommand s else .next s

/-- One step: the turn at the head of the list, or the block's turn when the list is empty (R20, R69;
assumption 2). -/
def step (s : State) : Host.Outcome State Fault Refusal :=
  match s.outside.turns with
  | [] => blockTurn s
  | .block :: _ => blockTurn s.popTurn
  | .write addr w :: _ => .next (s.popTurn.busWrite addr w)
  | .read addr :: _ => .next (s.popTurn.busRead addr)
  | .rstN level :: _ => .next (s.popTurn.setRstN level)

/-- The state whose very next step runs the table's word: the word is the command in execution (assumption 2).
A word is `nbits` bits; every bit above them is 0. -/
def State.withFetchWord (s : State) (nbits w : Nat) : State := s.fetching (BitVec.ofNat 32 (w % 2 ^ nbits))

end Sys2Proof.Machine
end

