-- ==== Sys2Proof/Machine/HostSegments.lean ====
section
/-! DEFINITION. The host's duties before it writes a word (44_host_segments.md): the segments, their bits and the
commands that put them, and the turns of one command. None of this is block state (R4). `Machine/HostEncode.lean`
composes it with the block through the bus (assumption 10). -/

namespace Sys2Proof.Machine

/-- The four segment modes (R192, R196). -/
inductive Mode where
  | numeric | alphanumeric | byte | kanji
  deriving DecidableEq, Repr

/-- The 4-bit mode indicator (R192). -/
def modeIndicator : Mode → Nat
  | .numeric => 0b0001
  | .alphanumeric => 0b0010
  | .byte => 0b0100
  | .kanji => 0b1000

/-- Mode dispatch (R196): a tag that is none of the four is the host error UnsupportedMode, never a default. The
spec numbers no tags: that the four mode indicators of rule R192 are the tags a caller gives, and the only ones
recognised, is the model's choice (assumption 19, DESIGN CHOICE). -/
def modeOfTag (tag : Nat) : Except ErrCode Mode :=
  if tag = 0b0001 then .ok .numeric
  else if tag = 0b0010 then .ok .alphanumeric
  else if tag = 0b0100 then .ok .byte
  else if tag = 0b1000 then .ok .kanji
  else .error .unsupportedMode

/-- What a segment carries: a string, as UTF-16 code units (R195), with the Shift JIS code of each of its characters
for Kanji, since the spec gives no conversion (assumption 10); or bytes (R201). -/
inductive Payload where
  | text (units sjis : List Nat)
  | bytes (bs : List Byte)
  deriving DecidableEq, Repr

/-- A segment `(mode, payload)` (R190), its mode one of the four. -/
structure Segment where
  mode : Mode
  payload : Payload
  deriving DecidableEq, Repr

/-- A segment as a caller hands it over, its mode still a tag (R196). -/
structure TaggedSegment where
  tag : Nat
  payload : Payload
  deriving DecidableEq, Repr

/-- The dispatch of a caller's segment (R196): its mode, or UnsupportedMode. -/
def segmentOf (ts : TaggedSegment) : Except ErrCode Segment :=
  match modeOfTag ts.tag with
  | .ok m => .ok { mode := m, payload := ts.payload }
  | .error e => .error e

/-- countBits(mode, version) (R193). -/
def countBits (m : Mode) (v : Nat) : Nat :=
  match m with
  | .numeric => if v ≤ 9 then 10 else if v ≤ 26 then 12 else 14
  | .alphanumeric => if v ≤ 9 then 9 else if v ≤ 26 then 11 else 13
  | .byte => if v ≤ 9 then 8 else 16
  | .kanji => if v ≤ 9 then 8 else if v ≤ 26 then 10 else 12

/-- The code points of a sequence of UTF-16 code units: a surrogate pair combines (R195). -/
def codePoints : List Nat → List Nat
  | [] => []
  | [u] => [u]
  | u :: l :: rest =>
    if 0xD800 ≤ u ∧ u ≤ 0xDBFF ∧ 0xDC00 ≤ l ∧ l ≤ 0xDFFF then
      (0x10000 + (u - 0xD800) * 2 ^ 10 + (l - 0xDC00)) :: codePoints rest
    else u :: codePoints (l :: rest)

/-- The UTF-8 form of a code point (R195). -/
def utf8Of (u : Nat) : List Byte :=
  let b (n : Nat) : Byte := BitVec.ofNat 8 n
  if u < 0x80 then [b u]
  else if u < 0x800 then [b (0xC0 + u / 2 ^ 6), b (0x80 + u % 2 ^ 6)]
  else if u < 0x10000 then [b (0xE0 + u / 2 ^ 12), b (0x80 + u / 2 ^ 6 % 2 ^ 6), b (0x80 + u % 2 ^ 6)]
  else
    [b (0xF0 + u / 2 ^ 18), b (0x80 + u / 2 ^ 12 % 2 ^ 6), b (0x80 + u / 2 ^ 6 % 2 ^ 6), b (0x80 + u % 2 ^ 6)]

/-- The UTF-8 form of a text (R195). -/
def utf8Text (text : List Nat) : List Byte := (codePoints text).flatMap utf8Of

/-- The characters of a payload, as numbers; of bytes, each byte is one (R194, R197). -/
def Payload.characters : Payload → List Nat
  | .text units _ => units
  | .bytes bs => bs.map BitVec.toNat

/-- The bytes of a payload: the UTF-8 form of a string, or the bytes themselves (R195, R201). -/
def Payload.utf8 : Payload → List Byte
  | .text units _ => utf8Text units
  | .bytes bs => bs

/-- The Shift JIS codes of a payload's characters (R197); a byte is none, and is refused as a character. -/
def Payload.sjis : Payload → List Nat
  | .text _ sjis => sjis
  | .bytes bs => bs.map BitVec.toNat

/-- A put the host makes: a bit count and a value. -/
structure Field where
  width : Nat
  value : Nat
  deriving DecidableEq, Repr

/-- The value of a decimal digit (R194); a character outside '0'..'9' is InvalidCharacter. -/
def digitOf (c : Nat) : Except ErrCode Nat := if 48 ≤ c ∧ c ≤ 57 then .ok (c - 48) else .error .invalidCharacter

/-- The numeric body of a sequence of digit values: runs of 3 in 10 bits, 2 in 7, 1 in 4 (R194). -/
def numericBody : List Nat → List Field
  | [] => []
  | [a] => [⟨4, a⟩]
  | [a, b] => [⟨7, 10 * a + b⟩]
  | a :: b :: c :: rest => ⟨10, 100 * a + 10 * b + c⟩ :: numericBody rest

/-- The byte body: each byte in 8 bits (R195). -/
def byteBody (bytes : List Byte) : List Field := bytes.map fun b => ⟨8, b.toNat⟩

/-- The 45 alphanumeric symbols in the order of their values (R197): 0-9, A-Z, space, $ % * + - . / : -/
def alnumSymbols : List Nat :=
  (List.range 10).map (48 + ·) ++ (List.range 26).map (65 + ·) ++ [32, 36, 37, 42, 43, 45, 46, 47, 58]

/-- The value of an alphanumeric symbol (R197). -/
def alnumOf (c : Nat) : Except ErrCode Nat :=
  if c ∈ alnumSymbols then .ok (alnumSymbols.idxOf c) else .error .invalidCharacter

/-- The alphanumeric body of a sequence of symbol values: pairs in 11 bits, a single one in 6 (R197). -/
def alnumBody : List Nat → List Field
  | [] => []
  | [a] => [⟨6, a⟩]
  | a :: b :: rest => ⟨11, 45 * a + b⟩ :: alnumBody rest

/-- The 13-bit value of a Shift JIS code (R197). -/
def kanjiOf (s : Nat) : Except ErrCode Nat :=
  if 0x8140 ≤ s ∧ s ≤ 0x9FFC then .ok ((s - 0x8140) / 256 * 0xC0 + (s - 0x8140) % 256)
  else if 0xE040 ≤ s ∧ s ≤ 0xEBBF then .ok ((s - 0xC140) / 256 * 0xC0 + (s - 0xC140) % 256)
  else .error .invalidCharacter

/-- What a segment is written as: its mode, its character count and its body (R190 to R197). -/
structure Written where
  mode : Mode
  count : Nat
  body : List Field
  deriving DecidableEq, Repr

/-- A segment written as a BYTE segment (R195). -/
def writtenBytes (p : Payload) : Written := { mode := .byte, count := p.utf8.length, body := byteBody p.utf8 }

/-- The mode, count and body of a segment under HOST_ALNUM_MODE, or the host error (R190 to R197, R345). -/
def writtenOf (alnum : Config.AlnumMode) (sg : Segment) : Except ErrCode Written :=
  match sg.mode, alnum with
  | .numeric, _ => do
    let ds ← sg.payload.characters.mapM digitOf
    .ok { mode := .numeric, count := ds.length, body := numericBody ds }
  | .byte, _ | .alphanumeric, .byteFallback | .kanji, .byteFallback => .ok (writtenBytes sg.payload)
  | .alphanumeric, .standard => do
    let vs ← sg.payload.characters.mapM alnumOf
    .ok { mode := .alphanumeric, count := vs.length, body := alnumBody vs }
  | .kanji, .standard => do
    let vs ← sg.payload.sjis.mapM kanjiOf
    .ok { mode := .kanji, count := vs.length, body := vs.map fun x => ⟨13, x⟩ }

/-- The puts of a segment at a version: mode indicator, count, body (R190). -/
def fieldsOf (v : Nat) (w : Written) : List Field :=
  ⟨4, modeIndicator w.mode⟩ :: ⟨countBits w.mode v, w.count⟩ :: w.body

/-- bodyBits of a segment (R191's table): it depends on the payload's length alone. -/
def bodyBits (alnum : Config.AlnumMode) (sg : Segment) : Nat :=
  match sg.mode, alnum with
  | .numeric, _ =>
    let d := sg.payload.characters.length
    10 * (d / 3) + (if d % 3 = 2 then 7 else if d % 3 = 1 then 4 else 0)
  | .byte, _ | .alphanumeric, .byteFallback | .kanji, .byteFallback => 8 * sg.payload.utf8.length
  | .alphanumeric, .standard => 11 * (sg.payload.characters.length / 2) + 6 * (sg.payload.characters.length % 2)
  | .kanji, .standard => 13 * sg.payload.sjis.length

/-- The mode a segment is written in (R197). -/
def writtenMode (alnum : Config.AlnumMode) (m : Mode) : Mode :=
  match m, alnum with
  | .numeric, _ => .numeric
  | .byte, _ | .alphanumeric, .byteFallback | .kanji, .byteFallback => .byte
  | .alphanumeric, .standard => .alphanumeric
  | .kanji, .standard => .kanji

/-- The host's bit length of a segment list at version v (R191). -/
def segmentsBits (alnum : Config.AlnumMode) (v : Nat) (segs : List Segment) : Nat :=
  (segs.map fun sg => 4 + countBits (writtenMode alnum sg.mode) v + bodyBits alnum sg).sum

/-- The value of the version search (R198): the first version 1..40 at which the stream fits, or CapacityExceeded.
`Machine/HostEncode.lean` has the search as the host makes it, with TBL_Q on the block. It goes by lengths alone
(R191), before any character is looked at (assumption 18, DESIGN CHOICE). -/
def versionSearch (alnum : Config.AlnumMode) (e : Nat) (segs : List Segment) : Except ErrCode Nat :=
  match ((List.range Config.maxVer).map (· + 1)).find? fun v => decide (segmentsBits alnum v segs ≤ capOf v e * 8) with
  | some v => .ok v
  | none => .error .capacityExceeded

/-- The put of a field, as the host writes it: BB_PUT of its width, at most 16 (assumption 10). -/
def putOf (f : Field) : Instr := .bbPut (BitVec.ofNat 5 f.width) (BitVec.ofNat 16 f.value)

/-- The segments of `encode(text, …)` (R201): one BYTE segment of the text's UTF-8 form. -/
def segmentsOfText (text : List Nat) : List TaggedSegment := [⟨modeIndicator .byte, .bytes (utf8Text text)⟩]

/-- The segments of `encode` of a byte input (R201): one BYTE segment of the bytes themselves. -/
def segmentsOfBytes (bytes : List Byte) : List TaggedSegment := [⟨modeIndicator .byte, .bytes bytes⟩]

/-- A command as the host issues it and keeps its duty (R366): the CMD write, then turns of the block until STATUS
reads BUSY = 0 (one is enough: each command is one step), then the STATUS read. -/
def issueTurns (base : Nat) (i : Instr) : List Turn :=
  [.write (base + 0x100) (encode i), .block, .read (base + 0x004)]

/-- The host's turns of a sequence of commands. -/
def hostTurns (base : Nat) (is : List Instr) : List Turn := is.flatMap (issueTurns base)

end Sys2Proof.Machine
end

