-- ==== Sys2Proof/Machine/HostEncode.lean ====
section
/-! DEFINITION. The host at work on the block (44_host_segments.md, R345, R366): it takes one turn after another,
looks at what its reads return, and stops on any error. The version search with TBL_Q (R198), the encode sequence
with its readback (R199), `encode` of a text and of bytes (R201), and `isDark` (R199, R345). -/

namespace Sys2Proof.Machine

/-! ### One turn, one command -/

/-- The host makes one interaction, or gives the block its turn (R366; assumption 2). No step faults or refuses
(assumption 11), so the last two arms are never taken. -/
def State.takeTurn (s : State) (x : Turn) : State :=
  match step { s with outside := { s.outside with turns := [x] } } with
  | .next t => t
  | .fault _ | .refused _ => s

/-- Why an encode ended without a result: a host error (R345), or the error the block recorded (R366). -/
inductive EncodeError where
  | host (e : ErrCode)
  | block (code info : Word)
  deriving DecidableEq, Repr

/-- The number of the error: host errors have theirs in the block's numbering (R330, R345). -/
def EncodeError.number : EncodeError → Word
  | .host e => e.code.setWidth 32
  | .block code _ => code

/-- A piece of the host's work: from a state to the state it leaves and its result, or the error that ends the
encode there. -/
def HostDuty (α : Type) : Type := State → State × Except EncodeError α

/-- Nothing to do. -/
def HostDuty.done {α : Type} (a : α) : HostDuty α := fun s => (s, .ok a)

/-- The host stops: no further command is issued (R345). -/
def HostDuty.stop {α : Type} (e : EncodeError) : HostDuty α := fun s => (s, .error e)

/-- One piece, then the next with its result; an error ends both (R199). -/
def HostDuty.andThen {α β : Type} (d : HostDuty α) (k : α → HostDuty β) : HostDuty β := fun s =>
  match d s with
  | (t, .ok a) => k a t
  | (t, .error e) => (t, .error e)

/-- One piece for each member of a list, in order, with all the results. -/
def HostDuty.forEach {α β : Type} (f : α → HostDuty β) : List α → HostDuty (List β)
  | [] => .done []
  | a :: as => (f a).andThen fun b => (forEach f as).andThen fun bs => .done (b :: bs)

/-- The host reads the register at an offset (R40, R366). -/
def readOffset (off : Nat) : HostDuty Word := fun s =>
  let t := s.takeTurn (.read (s.inst.blockBase + off))
  (t, .ok (t.outside.readData.getD 0))

/-- The host reads R[k] (R22). -/
def readRegister (k : Reg) : HostDuty Word := readOffset (0x0C0 + 4 * k.val)

/-- The host writes CTRL.SRST, as it does before the next encode when one has failed (R361, R366). -/
def hostReset : HostDuty Unit := fun s => (s.takeTurn (.write (s.inst.blockBase + 0x104) 1), .ok ())

/-- One command (R199, R366): the CMD write, the block's turn, the STATUS read that shows BUSY = 0; then STATUS.ERR is
looked at, and with ERR = 1 the host stops with ERRCODE and ERRINFO. -/
def issue (i : Instr) : HostDuty Unit := fun s =>
  let t := (issueTurns s.inst.blockBase i).foldl State.takeTurn s
  if (t.outside.readData.getD 0).getLsbD 1 then
    ((readOffset 0x008).andThen fun code => (readOffset 0x010).andThen fun info => .stop (.block code info)) t
  else (t, .ok ())

/-- Commands one after the other, until one fails. -/
def issueAll : List Instr → HostDuty Unit
  | [] => .done ()
  | i :: is => (issue i).andThen fun _ => issueAll is

/-! ### The version search on the block (R198) -/

/-- The search over the candidate versions left: each is loaded into R1, TBL_Q selector 0 gives its capacity in R2,
and the first that the stream fits is the answer; CapacityExceeded when none is left. The registers are the model's
choice (assumption 20). -/
def searchVersions (alnum : Config.AlnumMode) (segs : List Segment) : List Nat → HostDuty (BitVec 16)
  | [] => .stop (.host .capacityExceeded)
  | v :: vs =>
    (issueAll [.li 1 (BitVec.ofNat 16 v), .tblQ 2 1 0 0]).andThen fun _ =>
      (readRegister 2).andThen fun cap =>
        if segmentsBits alnum v segs ≤ uint cap * 8 then .done (BitVec.ofNat 16 v)
        else searchVersions alnum segs vs

/-- Step 2's version (R199): the one given, or the search's when it is 0. A segment of an unknown mode has no length,
so it ends the search before it begins (R191, R196); an invalid character does not (assumption 18). -/
def chooseVersion (alnum : Config.AlnumMode) (version : BitVec 16) (segs : List TaggedSegment) :
    HostDuty (BitVec 16) :=
  if version ≠ 0 then .done version
  else
    match segs.mapM segmentOf with
    | .error e => .stop (.host e)
    | .ok l => searchVersions alnum l ((List.range Config.maxVer).map (· + 1))

/-! ### The segments (R190, R345) -/

/-- Every segment in order: its mode is dispatched (R196) and its body formed (R194 to R197) before any bit of it is
written, and a host error there ends the encode (R345). -/
def putSegments (alnum : Config.AlnumMode) (v : Nat) : List TaggedSegment → HostDuty Unit
  | [] => .done ()
  | ts :: rest =>
    match (segmentOf ts).bind (writtenOf alnum) with
    | .error e => .stop (.host e)
    | .ok w => (issueAll ((fieldsOf v w).map putOf)).andThen fun _ => putSegments alnum v rest

/-! ### Reading the result (R199) -/

/-- Loading a 32-bit value: LI when it is a sign-extended 16-bit one, else the expansion of LI32 (R92). -/
def loadWord (rd rt : Reg) (v : Word) : List Instr :=
  let low : BitVec 16 := v.setWidth 16
  if sext32 low = v then [.li rd low]
  else [.lui rd ((v + 0x8000) >>> 16 |>.setWidth 16), .li rt low, .add rd rd rt]

/-- M_READ of a cell: the row into R8, the column into R9, the code from R7 (R199 step 7; assumption 20). -/
def readCell (row col : Word) : HostDuty Word :=
  (issueAll (loadWord 8 10 row ++ loadWord 9 10 col ++ [.mRead 7 8 9])).andThen fun _ => readRegister 7

/-- isDark of a cell code that M_READ returned (R199, R272). -/
def isDark (code : Word) : Bool := code == 0b11

/-- The number is a 32-bit value, read signed or unsigned. -/
def fitsWord (x : Int) : Bool := decide (-(2 ^ 31) ≤ x) && decide (x < 2 ^ 32)

/-- A caller's `isDark(row, col)` (R199, R345): the block's M_READ, whose OUT_OF_RANGE_ACCESS is the range error; a
number that no 32-bit register holds is outside every side, and is that error on the host. -/
def isDarkAt (row col : Int) : HostDuty Bool :=
  if fitsWord row && fitsWord col then
    (readCell (BitVec.ofInt 32 row) (BitVec.ofInt 32 col)).andThen fun code => .done (isDark code)
  else .stop (.host .outOfRangeAccess)

/-- QRSPEC's `Matrix` (R199): the side, and isDark of every cell, row by row. -/
structure SymbolMatrix where
  side : Nat
  dark : List (List Bool)
  deriving DecidableEq, Repr

/-- Step 7 (R199): SIDE is read, then every cell of the square by M_READ. -/
def readMatrix : HostDuty SymbolMatrix :=
  (readOffset 0x020).andThen fun side =>
    let n := uint side
    (HostDuty.forEach (fun r : Nat => HostDuty.forEach (fun c : Nat =>
        (readCell (wordOf r) (wordOf c)).andThen fun code => .done (isDark code)) (List.range n)) (List.range n)).andThen
      fun rows => .done { side := n, dark := rows }

/-! ### The encode (R199, R201) -/

/-- The encode sequence (R199), steps 1 to 7, of a caller's segment list at a level code and a version (0 = search).
It stops on any error, the host's or the block's. The spec orders the host's errors in no way; that a search which
finds no version reports CapacityExceeded although a segment holds an invalid character is the model's choice
(assumption 18, DESIGN CHOICE). -/
def encodeSequence (alnum : Config.AlnumMode) (e : BitVec 2) (version : BitVec 16) (segs : List TaggedSegment) :
    HostDuty SymbolMatrix :=
  (issue (.setecl (e.setWidth 16))).andThen fun _ =>
    (chooseVersion alnum version segs).andThen fun v =>
      (issueAll [.setver v, .bbClr]).andThen fun _ =>
        (putSegments alnum v.toNat segs).andThen fun _ =>
          (issueAll [.bbFinal, .rsEncode, .mSelect]).andThen fun _ => readMatrix

/-- `encode(text, eccLevel, version)` of a string, as UTF-16 code units (R199, R201). -/
def encodeText (alnum : Config.AlnumMode) (text : List Nat) (e : BitVec 2) (version : BitVec 16) :
    HostDuty SymbolMatrix := encodeSequence alnum e version (segmentsOfText text)

/-- `encode(bytes, eccLevel, version)` of a byte input (R199, R201). -/
def encodeBytes (alnum : Config.AlnumMode) (bytes : List Byte) (e : BitVec 2) (version : BitVec 16) :
    HostDuty SymbolMatrix := encodeSequence alnum e version (segmentsOfBytes bytes)

end Sys2Proof.Machine
end

