-- ==== Sys2Proof/Safety.lean ====
section
/-! DEFINITION. What counts as a sound state of QRCORE, in the terms the claims use: the canonical form of the
memories, the ranges the spec gives each element, and the relations between elements that every step keeps. Before
them, what a run is and when it has ended (R372). -/

namespace Sys2Proof.Machine

/-- The block has halted on an error (R32, R335). -/
def State.Halted (s : State) : Prop := s.error.err = true

/-! ### Runs (R372) -/

/-- Where the host stands with its last CMD write (R366). -/
inductive Poll where
  /-- It has made none. -/
  | noCommand
  /-- It has made one, and has not read BUSY = 0 since. -/
  | waiting
  /-- It has read BUSY = 0 since its last CMD write. -/
  | polled
  deriving DecidableEq, Repr

/-- Where the host stands after a turn that led from s to t: a CMD write makes it wait, and a STATUS read that
returned BUSY = 0 ends the wait. -/
def Poll.after (p : Poll) (s : State) (x : Turn) (t : State) : Poll :=
  match x with
  | .write a _ => if s.select a = some 0x100 then .waiting else p
  | .read a =>
    if p = .waiting ∧ s.select a = some 0x004 ∧ (t.outside.readData.getD 0).getLsbD 0 = false then .polled else p
  | .block | .rstN _ => p

/-- A sequence of turns taken from a state, and where the host then stands. -/
def runTurns : List Turn → State → Poll → State × Poll
  | [], s, p => (s, p)
  | x :: xs, s, p => runTurns xs (s.takeTurn x) (p.after s x (s.takeTurn x))

/-- The start of a run: the reset state of rule R360, RST_N released, no interaction made. -/
def runStart (p : Config.Params) : State :=
  State.resetOf p { rstN := true, turns := [], readData := none, draws := 0 }

/-- The turn is a reset: RST_N, or a CTRL write with bit 0 = 1 (R361, R362). -/
def Turn.isReset (s : State) : Turn → Bool
  | .write a w => decide (s.select a = some 0x104) && w.getLsbD 0
  | .rstN _ => true
  | .block | .read _ => false

/-- The turns are a run of an instance that has ended in t (R372): they start from the reset state, none is a reset
(of a run cut by one the rule says nothing), and the last of them is the STATUS read that, after the last CMD write,
first returned BUSY = 0 (assumption 21). The state t is the run's result. -/
structure EndedRun (p : Config.Params) (xs : List Turn) (t : State) : Prop where
  uncut : ∀ x ∈ xs, x.isReset (runStart p) = false
  result : runTurns xs (runStart p) .noCommand = (t, .polled)
  last : (runTurns xs.dropLast (runStart p) .noCommand).2 = .waiting

/-- A failed run: it has ended with STATUS.ERR = 1, and its result is the error record of t (R372). -/
def FailedRun (p : Config.Params) (xs : List Turn) (t : State) : Prop := EndedRun p xs t ∧ t.Halted

/-- A run with an encode's output: it has ended with ERR = 0 and a complete matrix; the output is SIDE and
`State.outputDark` (R372). -/
def EncodedRun (p : Config.Params) (xs : List Turn) (t : State) : Prop :=
  EndedRun p xs t ∧ ¬ t.Halted ∧ (t.mx.mstate = .mapped ∨ t.mx.mstate = .scored)

/-- `isDark(row, col)` of an encode's output, none outside the side (R199, R372). -/
def State.outputDark (s : State) (r c : Nat) : Option Bool :=
  if r < s.side ∧ c < s.side then some (decide (gridGet s.mx.cells r c = .dark)) else none

/-! ### Sound states -/

/-- The memories are in canonical form, so equal memories are equal data. -/
def State.MemOk (s : State) : Prop := s.memWf = true

/-- The ranges of rules R22 to R27, and SIDE = 4 · VER + 17 exactly while there is a matrix (R27, R28). -/
structure State.Shaped (s : State) : Prop where
  /-- A polynomial register holds at most PMAX coefficients (R23). -/
  polys : ∀ p : PReg, (s.poly p).length ≤ Config.pMax
  /-- VER is 0..40 (R24). -/
  ver : s.conf.ver.toNat ≤ Config.maxVer
  /-- BBLEN is at most BB_MAX_BITS (R25). -/
  buffer : s.bb.length ≤ Config.bbMaxBits
  /-- CWLEN is at most CWM_BYTES (R26). -/
  cwLen : s.cw.len.toNat ≤ Config.cwmBytes
  /-- CWM has CWM_BYTES bytes (R26). -/
  cwm : Memory.below Config.cwmBytes s.cw.cells = true
  /-- MAT is MAX_SIDE × MAX_SIDE (R27). -/
  mat : gridBelow Config.maxSide s.mx.cells = true
  /-- SIDE is 0 whenever MSTATE is NONE (R27). -/
  noMatrix : s.mx.mstate = .none → s.mx.side = 0
  /-- A matrix has a version, and SIDE is that version's side (R27, R257). -/
  matrix : s.mx.mstate ≠ .none → s.conf.ver ≠ 0 ∧ s.side = 4 * s.conf.ver.toNat + 17

/-- CW_READY says that CWM[0..CWLEN-1] holds the interleaved codeword stream of the buffer at the current VER and
ECL (R26), and the buffer still holds exactly the data capacity (R217). -/
def State.StreamOk (s : State) : Prop :=
  s.cw.ready = true →
    s.conf.ver ≠ 0 ∧ s.bb.length = s.cap * 8 ∧ s.cw.len.toNat = totalOf s.conf.ver.toNat ∧
      codewordsOf s.conf.ver.toNat s.conf.ecl.toNat s.bb = .ok s.stream

/-- The build states after M_TIMING. -/
def MState.timed (m : MState) : Prop :=
  m = .timing ∨ m = .typeinfo ∨ m = .typenum ∨ m = .mapped ∨ m = .scored

/-- From M_TIMING on, no cell of row 6 and column 6 is UNSET (R263); in MAPPED and SCORED, no cell of the square is
UNSET (R274). -/
structure State.BuildOk (s : State) : Prop where
  timing : s.mx.mstate.timed →
    ∀ k, k < s.side → gridGet s.mx.cells k 6 ≠ .unset ∧ gridGet s.mx.cells 6 k ≠ .unset
  mapped : s.mx.mstate = .mapped ∨ s.mx.mstate = .scored →
    ∀ r c, r < s.side → c < s.side → gridGet s.mx.cells r c ≠ .unset

/-- The error codes the block writes: all but NONE and the two host errors (R330, R345). -/
def ErrCode.raisable (c : ErrCode) : Prop := c ≠ .none ∧ c ≠ .invalidCharacter ∧ c ≠ .unsupportedMode

/-- The error record, BUSY, the refused word and the reset pin fit together. -/
structure State.ControlOk (s : State) : Prop where
  /-- Only the error mechanism writes the record (R32): without an error it holds its reset value. -/
  noError : s.error.err = false → s.error = ErrRecord.reset
  /-- A halted block executes nothing, and no command has completed since the error (R333, R335). -/
  halted : s.error.err = true → s.busy = false ∧ s.error.code.raisable ∧ s.error.cnt = s.cmdCnt
  /-- A word is refused only while a command is in execution (R337). -/
  refused : s.overrun ≠ none → s.busy = true
  /-- While RST_N = 0 the block holds the reset state (R362). -/
  held : s.outside.rstN = false → s = State.resetOf s.inst s.outside

end Sys2Proof.Machine
end

