-- ==== Sys2Proof/Certificates/Slice0/Obligations.lean ====
section
/-! DEFINITION. The statements about QRCORE, for the provers. The first part says in the spec's own terms what a
command may write, what the register map shows, and the mathematics the engines compute; none of it calls the
model's meanings. The statements follow, in the order of the spec's files. -/

namespace Sys2Proof.Claims

open Sys2Proof.Machine

/-! ### What a command writes: "A state element that a rule does not name as written is unchanged" (R100) -/

/-- The elements of rule R21's table, and the model's own fields. BUSY and CMDCNT stand apart: every command that
ends writes the first, and every one that completes the second (R33). -/
inductive Elem where
  | regs | polys | ver | ecl | mask | bb | cwm | cwLen | cwReady | mat | side | mstate | mtest | score | sel | error
  | params | cmd | overrun | outside
  deriving DecidableEq, Repr

/-- The element reads the same in both states; a memory is compared cell by cell. -/
def Elem.same (s t : State) : Elem → Prop
  | .regs => ∀ k : Reg, t.reg k = s.reg k
  | .polys => ∀ p : PReg, t.poly p = s.poly p
  | .ver => t.conf.ver = s.conf.ver
  | .ecl => t.conf.ecl = s.conf.ecl
  | .mask => t.conf.mask = s.conf.mask
  | .bb => t.bb = s.bb
  | .cwm => ∀ k, t.cwm k = s.cwm k
  | .cwLen => t.cw.len = s.cw.len
  | .cwReady => t.cw.ready = s.cw.ready
  | .mat => ∀ r c, gridGet t.mx.cells r c = gridGet s.mx.cells r c
  | .side => t.mx.side = s.mx.side
  | .mstate => t.mx.mstate = s.mx.mstate
  | .mtest => t.mx.mtest = s.mx.mtest
  | .score => t.score = s.score
  | .sel => t.sel = s.sel
  | .error => t.error = s.error
  | .params => t.inst = s.inst
  | .cmd => t.cmd = s.cmd
  | .overrun => t.overrun = s.overrun
  | .outside => t.outside = s.outside

/-- The command completes: `exec` answers a next state that counts it, and every element but those written reads as
before (R33, R100); `P` says what the written elements hold. -/
def Completes (i : Instr) (s : State) (written : List Elem) (P : State → Prop) : Prop :=
  ∃ t, exec i s = .next t ∧ t.cmdCnt = s.cmdCnt + 1 ∧ t.busy = false ∧ (∀ e : Elem, e ∉ written → e.same s t) ∧ P t

/-- t is what raising E(info) leaves of s: the error record alone is written, the block has halted (R333). -/
def RaisedFrom (s t : State) (code : ErrCode) (info : Word) : Prop :=
  t.error = { err := true, code := code, cmd := s.cmd, info := info, cnt := s.cmdCnt } ∧ t.busy = false ∧
    t.cmdCnt = s.cmdCnt ∧ ∀ e : Elem, e ≠ .error → e.same s t

/-- The command raises E(info). -/
def Raises (i : Instr) (s : State) (code : ErrCode) (info : Word) : Prop :=
  ∃ t, exec i s = .next t ∧ RaisedFrom s t code info

/-- The command completes, and writes v to R[rd] and nothing else. -/
def WritesReg (i : Instr) (s : State) (rd : Reg) (v : Word) : Prop :=
  Completes i s [.regs] fun t => t.reg rd = v ∧ ∀ k, k ≠ rd → t.reg k = s.reg k

/-- The command completes, and writes q to P[pd] and nothing else. -/
def WritesPoly (i : Instr) (s : State) (pd : PReg) (q : List Byte) : Prop :=
  Completes i s [.polys] fun t => t.poly pd = q ∧ ∀ k, k ≠ pd → t.poly k = s.poly k

/-! ### The register map (R40 to R42, R330) -/

/-- The code of rule R28. -/
def mstateCode : MState → Nat
  | .none => 0 | .empty => 1 | .probes => 2 | .align => 3 | .timing => 4
  | .typeinfo => 5 | .typenum => 6 | .mapped => 7 | .scored => 8

/-- The code of rule R330. -/
def errorCode : ErrCode → Nat
  | .none => 0 | .capacityExceeded => 1 | .invalidCharacter => 2 | .unsupportedMode => 3
  | .outOfRangeAccess => 4 | .malformedPolynomial => 5 | .gfDomain => 6 | .illegalCommand => 7
  | .badParameter => 8 | .sequenceError => 9 | .resourceOverflow => 10 | .cmdOverrun => 11

/-- The STATUS word of rule R41, as a number, with a given BUSY bit. -/
def statusNat (s : State) (busy : Bool) : Nat :=
  busy.toNat + 2 * s.error.err.toNat + 4 * s.cw.ready.toNat + 8 * s.mx.mtest.toNat + 16 * mstateCode s.mx.mstate

/-- The CFG word of rule R42, as a number. -/
def cfgNat (s : State) : Nat :=
  s.conf.ver.toNat + 2 ^ 8 * s.conf.ecl.toNat + 2 ^ 12 * s.conf.mask.toNat
    + 2 ^ 16 * (match s.inst.n4Mode with | .exact => 0 | .floor => 1)

/-- Rule R40's table: the offset and the content of every readable register. -/
def regTable (s : State) (busy : Bool) : List (Nat × Nat) :=
  [(0x000, 0x51524331), (0x004, statusNat s busy), (0x008, errorCode s.error.code), (0x00C, s.error.cmd.toNat),
    (0x010, s.error.info.toNat), (0x014, s.error.cnt.toNat), (0x018, s.cmdCnt.toNat), (0x01C, cfgNat s),
    (0x020, s.mx.side.toNat), (0x024, s.bb.length), (0x028, s.cw.len.toNat), (0x02C, s.score.pen1.toNat),
    (0x030, s.score.pen2.toNat), (0x034, s.score.pen3.toNat), (0x038, s.score.pen4num.toNat),
    (0x03C, s.score.dark.toNat), (0x040, s.score.score.toNat % 2 ^ 32), (0x044, s.score.score.toNat / 2 ^ 32),
    (0x048, s.sel.bestMask.toNat)]
    ++ (List.finRange 8).flatMap (fun m => [(0x050 + 8 * m.val, s.sel.selScore[m].toNat % 2 ^ 32),
        (0x054 + 8 * m.val, s.sel.selScore[m].toNat / 2 ^ 32)])
    ++ (List.finRange 16).map fun k => (0x0C0 + 4 * k.val, (s.reg k).toNat)

/-- What a read of an offset returns: the table's content; 0 at a write-only or reserved offset (R40, R61). -/
def regMap (s : State) (busy : Bool) (off : Nat) : Word :=
  BitVec.ofNat 32 (((regTable s busy).lookup off).getD 0)

/-! ### GF(256) and polynomials over it, without tables (R124, R129) -/

/-- Multiplication by α = x modulo x^8 + x^4 + x^3 + x^2 + 1 (R129). -/
def timesAlpha (a : Byte) : Byte := (a <<< 1) ^^^ (if a.msb then 0x1D else 0)

/-- α^k. -/
def alphaPow : Nat → Byte
  | 0 => 1
  | k + 1 => timesAlpha (alphaPow k)

/-- The field product: the sum over the bits of b of a · α^i. -/
def gmul (a b : Byte) : Byte :=
  (List.range 8).foldl (fun acc i => if b.getLsbD i then acc ^^^ Nat.iterate timesAlpha i a else acc) 0

/-- The coefficient of x^k of a sequence written most significant term first (R23). -/
def coef (p : List Byte) (k : Nat) : Byte := p.reverse.getD k 0

/-- The coefficient of x^k of the product of two polynomials. -/
def productCoef (a b : List Byte) (k : Nat) : Byte :=
  (List.range (k + 1)).foldl (fun acc i => acc ^^^ gmul (coef a i) (coef b (k - i))) 0

/-- The value of a polynomial at a point, by Horner's rule. -/
def evalAt (p : List Byte) (x : Byte) : Byte := p.foldl (fun acc c => gmul acc x ^^^ c) 0

/-! ### Bits -/

/-- The low n bits of v, most significant first (R66, R170). -/
def msbFirst (v n : Nat) : List Bool := (List.range n).map fun j => v.testBit (n - 1 - j)

/-- The product of two polynomials over GF(2), written as the bits of numbers. -/
def carryless (q g : Nat) : Nat :=
  (List.range (bitlen q)).foldl (fun acc i => if q.testBit i then acc ^^^ g <<< i else acc) 0

/-! ### Encoding (R81 to R88) -/

/-- For each opcode of rule R87's table, the bits of [23:0] that must be 0: the format's, the "must be zero" column's
and the upper two bits of a polynomial field (R86). -/
def mustBeZero : List (Nat × BitVec 24) :=
  [(0x00, 0xFFFFFF), (0x01, 0x0F0000), (0x02, 0x000FFF), (0x03, 0x000FFF), (0x04, 0x000FFF), (0x05, 0x0F0000),
    (0x06, 0xFF0000), (0x07, 0xFF0000), (0x08, 0xFF0000), (0x09, 0x0F0000)]
    ++ [(0x10, 0x00FFFF), (0x11, 0x0F0000), (0x12, 0x00FFFF), (0x13, 0x000FFF)]
    ++ [(0x20, 0xCFFFFF), (0x21, 0xCFFF00), (0x22, 0xC0FFFF), (0x23, 0xCF0000), (0x24, 0xCCFFFF), (0x25, 0xCCCFFF),
      (0x26, 0xCCCFFF), (0x27, 0xC0FFFF), (0x28, 0x0CFFFF), (0x29, 0x0C0FFF)]
    ++ [(0x30, 0xFFFFFF), (0x31, 0x070000), (0x32, 0xF00000), (0x33, 0x00FFFF), (0x34, 0x00FFFF), (0x35, 0xFFFFFF)]
    ++ [(0x40, 0x000000), (0x41, 0xFFFFFF), (0x42, 0x00FFFF), (0x50, 0x00FFFF), (0x51, 0x00FFFF)]
    ++ [(0x60, 0xFFFFFF), (0x61, 0xFFFFFF), (0x62, 0xFFFFFF), (0x63, 0xFFFFFF), (0x64, 0xFFFFFE), (0x65, 0xFFFFFE),
      (0x66, 0xFFFFFF), (0x67, 0x000FFF)]
    ++ [(0x70, 0x000FFF), (0x71, 0xFFFFFF), (0x72, 0xFFFFFE), (0x73, 0xFFFFFF)]

/-- The "range" column of rule R87, for the four commands whose range is no set of zero bits. -/
def inRange (op : Nat) (w : Word) : Prop :=
  let imm := w.toNat % 2 ^ 16
  (op = 0x05 → imm ≤ 0x0FC ∧ imm % 4 = 0) ∧
    (op = 0x31 → w.toNat / 2 ^ 19 % 2 ^ 5 ≤ 16) ∧
    (op = 0x32 → imm ≤ 32) ∧
    (op = 0x40 → imm % 2 ^ 8 ≤ 11 ∧ (imm / 2 ^ 8 ≠ 0 → imm % 2 ^ 8 ∈ [5, 6, 7, 9]))

/-- The word passes the checks of rule R88. -/
def Legal (w : Word) : Prop :=
  ∃ z, (w.toNat / 2 ^ 24, z) ∈ mustBeZero ∧ w.setWidth 24 &&& z = 0 ∧ inRange (w.toNat / 2 ^ 24) w

/-! ### The host's turns (R61, R366) -/

/-- The next turn is `x`, with `rest` after it. -/
def NextTurn (s : State) (x : Turn) (rest : List Turn) : Prop := s.outside.turns = x :: rest

/-- The next turn is the block's: the list is empty, or says so. -/
def BlockNext (s : State) : Prop := s.outside.turns = [] ∨ ∃ rest, NextTurn s .block rest

/-- Address bits [11:2] select the offset `off` in the window at BLOCK_BASE (R61). -/
def Selects (s : State) (addr off : Nat) : Prop :=
  ∃ a, a < 4096 ∧ addr = s.inst.blockBase + a ∧ off = a / 4 * 4

/-- Nothing of the block changed; the world outside it may have. -/
def BlockUnchanged (s t : State) : Prop := t = { s with outside := t.outside }

/-- The turn is one of the two resets (R361, R362). -/
def IsReset (s : State) : Turn → Prop
  | .write a w => Selects s a 0x104 ∧ w.getLsbD 0 = true
  | .rstN level => level = false
  | .block | .read _ => False

/-- Every element in the value rule R360's table gives it; CWM and MAT are unspecified there. -/
def ResetValues (t : State) : Prop :=
  (∀ k, t.reg k = 0) ∧ (∀ p, t.poly p = []) ∧ t.conf = { ver := 0, ecl := 0, mask := 0 } ∧ t.bb = [] ∧
    t.cw.len = 0 ∧ t.cw.ready = false ∧ t.mx.side = 0 ∧ t.mx.mstate = .none ∧ t.mx.mtest = false ∧
    t.score = { pen1 := 0, pen2 := 0, pen3 := 0, pen4num := 0, dark := 0, score := 0 } ∧
    (∀ m : Fin 8, t.sel.selScore[m] = 0) ∧ t.sel.bestMask = 0 ∧
    t.error = { err := false, code := .none, cmd := 0, info := 0, cnt := 0 } ∧ t.cmdCnt = 0 ∧
    t.busy = false ∧ t.overrun = none

/-- k steps lead from s to t, each to a next state. -/
def Runs : Nat → State → State → Prop
  | 0, s, t => t = s
  | k + 1, s, t => ∃ u, step s = .next u ∧ Runs k u t

/-! ### The matrix -/

/-- MAT[r][c]. -/
def cell (s : State) (r c : Nat) : MCell := gridGet s.mx.cells r c

/-- The symbol's format-info word at the state's ECL and MASK (R265). -/
def formatOf (s : State) : Nat := formatWord s.conf.ecl.toNat s.conf.mask.toNat

/-- The finder stamp by rings: dark at distance 3, 1 and 0 from its centre (3, 3), light at 2 and 4 (R258). -/
def ringDark (r c : Int) : Bool :=
  let dist := max (r - 3).natAbs (c - 3).natAbs
  dist == 3 || decide (dist ≤ 1)

/-- What M_PROBES puts at a cell of the n × n square: three 8 × 8 corners, each a finder and its separator (R259). -/
def finderCell (n r c : Nat) : Option Bool :=
  if r ≤ 7 ∧ c ≤ 7 then some (ringDark r c)
  else if n ≤ r + 8 ∧ r < n ∧ c ≤ 7 then some (ringDark ((r : Int) - (n - 7 : Int)) c)
  else if r ≤ 7 ∧ n ≤ c + 8 ∧ c < n then some (ringDark r ((c : Int) - (n - 7 : Int)))
  else none

/-- The distance of two numbers. -/
def distance (a b : Nat) : Nat := max a b - min a b

/-- The columns right to left in pairs, column 6 skipped: the right column of the k-th pair (R270). -/
def pairRight (n k : Nat) : Nat := if 6 < n - 1 - 2 * k then n - 1 - 2 * k else n - 2 - 2 * k

/-- The mapping walk in closed form: pair k goes up for even k and down for odd k, the right cell first (R270). -/
def snake (n : Nat) : List (Nat × Nat) :=
  (List.range ((n - 1) / 2)).flatMap fun k =>
    (List.range n).flatMap fun j =>
      let row := if k % 2 = 0 then n - 1 - j else j
      [(row, pairRight n k), (row, pairRight n k - 1)]

/-- Bit j of the codeword stream of length CWLEN, each codeword from bit 7 down; 0 past its end (R66, R270). -/
def streamBit (s : State) (j : Nat) : Bool :=
  decide (j / 8 < s.cw.len.toNat) && (s.cwm (j / 8)).getLsbD (7 - j % 8)

/-! ### The penalty rules (R302 to R305) -/

/-- d(r, c). -/
def isDarkCell (s : State) (r c : Nat) : Bool := decide (cell s r c = .dark)

/-- The in-bounds neighbours of a cell with the cell's colour (R302). -/
def sameColour (s : State) (n r c : Nat) : Nat :=
  ((Finset.range n ×ˢ Finset.range n).filter fun p : Nat × Nat =>
    p ≠ (r, c) ∧ distance p.1 r ≤ 1 ∧ distance p.2 c ≤ 1 ∧ isDarkCell s p.1 p.2 = isDarkCell s r c).card

/-- P1 (R302). -/
def pen1 (s : State) (n : Nat) : Nat :=
  (Finset.range n).sum fun r => (Finset.range n).sum fun c =>
    if 5 < sameColour s n r c then 3 + sameColour s n r c - 5 else 0

/-- P2 (R303). -/
def pen2 (s : State) (n : Nat) : Nat :=
  3 * ((Finset.range (n - 1) ×ˢ Finset.range (n - 1)).filter fun p : Nat × Nat =>
    isDarkCell s p.1 p.2 = isDarkCell s (p.1 + 1) p.2 ∧ isDarkCell s p.1 p.2 = isDarkCell s p.1 (p.2 + 1) ∧
      isDarkCell s p.1 p.2 = isDarkCell s (p.1 + 1) (p.2 + 1)).card

/-- The pattern of rule R304: dark, light, dark, dark, dark, light, dark. -/
def runPattern (k : Nat) : Bool := k ≠ 1 && k ≠ 5

/-- P3 (R304). -/
def pen3 (s : State) (n : Nat) : Nat :=
  40 * (((Finset.range n ×ˢ Finset.range (n - 6)).filter fun p : Nat × Nat =>
      ∀ k : Fin 7, isDarkCell s p.1 (p.2 + k.val) = runPattern k.val).card
    + ((Finset.range (n - 6) ×ˢ Finset.range n).filter fun p : Nat × Nat =>
      ∀ k : Fin 7, isDarkCell s (p.1 + k.val) p.2 = runPattern k.val).card)

/-- D (R305). -/
def darkModules (s : State) (n : Nat) : Nat :=
  ((Finset.range n ×ˢ Finset.range n).filter fun p : Nat × Nat => isDarkCell s p.1 p.2 = true).card

/-- PEN4NUM of D and T (R305's table). -/
def pen4num (mode : Config.N4Mode) (D T : Nat) : Nat :=
  match mode with
  | .exact => distance (200 * D) (100 * T)
  | .floor => 10 * (distance (20 * D) (10 * T) / T) * T

/-! ### Build states and unobservable contents -/

/-- The build state a command requires: rule R28's table. -/
def Required (i : Instr) (s : State) : Prop :=
  match i with
  | .mProbes => s.mx.mstate = .empty
  | .mAlign => s.mx.mstate = .probes
  | .mTiming => s.mx.mstate = .align
  | .mTypeinfo _ => s.mx.mstate = .timing
  | .mTypenum _ => s.mx.mstate = .typeinfo
  | .mMap => s.mx.mstate = .typenum ∨ (s.mx.mstate = .typeinfo ∧ s.conf.ver.toNat < 7)
  | .mScore => s.mx.mstate = .mapped ∨ s.mx.mstate = .scored
  | .mRead .. => s.mx.mstate ≠ .none
  | _ => True

/-- The build state a command leaves: rule R28's table; a command the table does not name leaves it. -/
def StateAfter (i : Instr) (m : MState) : MState :=
  match i with
  | .setver _ | .setecl _ | .setmask _ => .none
  | .mInit => .empty
  | .mProbes => .probes
  | .mAlign => .align
  | .mTiming => .timing
  | .mTypeinfo _ => .typeinfo
  | .mTypenum _ => .typenum
  | .mMap | .mBuild _ | .mSelect => .mapped
  | .mScore => .scored
  | _ => m

/-- The states differ at most in what the spec leaves unspecified and unobservable: CWM while CW_READY = 0 and past
CWLEN, MAT while there is no matrix and outside the square (R26, R27, R360). -/
def Agree (s s' : State) : Prop :=
  s' = { s with cw := { s.cw with cells := s'.cw.cells }, mx := { s.mx with cells := s'.mx.cells } } ∧
    (s.cw.ready = true → ∀ k, k < s.cw.len.toNat → s'.cwm k = s.cwm k) ∧
    (s.mx.mstate ≠ .none → ∀ r c, r < s.side → c < s.side → cell s' r c = cell s r c)

/-- The columns of the blocks, one after the other; a block shorter than the column is skipped (R216). -/
def byColumns (blocks : List (List Byte)) : List Byte :=
  (List.range Config.pMax).flatMap fun i => blocks.filterMap fun b => b[i]?

end Sys2Proof.Claims

open Sys2Proof Sys2Proof.Machine Sys2Proof.Claims

/-! ## 10_state.md, 20_memory.md -/

/-- R40 to R42, R61, R62: a host read of a byte address in the window changes nothing of the block; while BUSY = 0
it returns the table's content at a[11:2] × 4, and while BUSY = 1 a read of STATUS returns BUSY = 1 (the other
fields are free: the model's draws, assumption 5). -/
def Obligations.HostReadsShowTheRegisterMap : Prop :=
  ∀ s addr off rest, NextTurn s (.read addr) rest → Selects s addr off →
    ∃ t v, step s = .next t ∧ BlockUnchanged s t ∧ t.outside.turns = rest ∧ t.outside.rstN = s.outside.rstN ∧
      t.outside.readData = some v ∧
      (s.busy = false → v = regMap s false off ∧ t.outside.draws = s.outside.draws) ∧
      (s.busy = true → off = 0x004 → v.getLsbD 0 = true)

/-- R61 to R63, R335, R337: what a host write does, at every offset, while RST_N = 1: CMD is accepted when idle,
kept for the overrun when busy and discarded when halted; every offset but CMD and CTRL ignores it. -/
def Obligations.HostWritesReachOnlyCmdAndCtrl : Prop :=
  ∀ s addr off w rest, NextTurn s (.write addr w) rest → Selects s addr off → s.outside.rstN = true →
    ∃ t, step s = .next t ∧
      (off = 0x100 → s.error.err = false → s.busy = false →
        t = { s.popTurn with cmd := w, busy := true }) ∧
      (off = 0x100 → s.error.err = false → s.busy = true → s.overrun = none →
        t = { s.popTurn with overrun := some w }) ∧
      (off = 0x100 → s.error.err = true → t = s.popTurn) ∧
      (off ≠ 0x100 → off ≠ 0x104 → t = s.popTurn)

/-- R24 to R31, R100: the whole-machine rule of who writes what, over every command. -/
def Obligations.OnlyTheNamedCommandsWrite : Prop :=
  ∀ i s t, exec i s = .next t →
    (t.conf.ver ≠ s.conf.ver → ∃ v, i = .setver v) ∧
    (t.conf.ecl ≠ s.conf.ecl → ∃ e, i = .setecl e) ∧
    (t.conf.mask ≠ s.conf.mask → (∃ m, i = .setmask m) ∨ i = .mSelect) ∧
    (t.bb ≠ s.bb → i = .bbClr ∨ (∃ n v, i = .bbPut n v) ∨ (∃ r n, i = .bbPutr r n) ∨ i = .bbFinal) ∧
    (t.bb.length < s.bb.length → i = .bbClr) ∧
    ((∃ k, t.cwm k ≠ s.cwm k) ∨ t.cw.len ≠ s.cw.len → i = .rsEncode) ∧
    (s.cw.ready = false → t.cw.ready = true → i = .rsEncode) ∧
    (s.cw.ready = true → t.cw.ready = false →
      (∃ v, i = .setver v) ∨ (∃ e, i = .setecl e) ∨ i = .bbClr ∨ (∃ n v, i = .bbPut n v) ∨
        (∃ r n, i = .bbPutr r n) ∨ i = .bbFinal) ∧
    (t.score ≠ s.score → i = .mScore ∨ i = .mSelect) ∧
    (t.sel ≠ s.sel → i = .mSelect) ∧
    (s.mx.mtest = false → t.mx.mtest = true → i = .mTypeinfo true ∨ i = .mTypenum true ∨ i = .mBuild true) ∧
    (s.mx.mtest = true → t.mx.mtest = false → i = .mInit ∨ i = .mBuild false ∨ i = .mSelect)

/-- R28: the codes of MSTATE, the build state each completing command required and the one it leaves, and NONE after
reset. -/
def Obligations.BuildStateTransitions : Prop :=
  (∀ m : MState, m.code.toNat = mstateCode m) ∧
    (∀ i s t, exec i s = .next t → t.cmdCnt = s.cmdCnt + 1 →
      Required i s ∧ t.mx.mstate = StateAfter i s.mx.mstate) ∧
    State.reset.mx.mstate = .none

/-! ## 30_encoding.md -/

/-- Decoding the word of a well-formed command gives the command back, with every operand at every value. -/
def Obligations.DecodeOfEncode : Prop := ∀ i : Instr, i.wf = true → decode (encode i) = .ok i

/-- R90: a word that decodes is the word of the command it decodes to, and that command is well formed: no two words
decode to one command, and no bit of a legal word is without meaning. -/
def Obligations.EncodeOfDecode : Prop := ∀ w i, decode w = .ok i → encode i = w ∧ i.wf = true

/-- R86 to R89: exactly the words that pass the checks of rules R86 and R87 decode, and any other word in execution
raises ILLEGAL_COMMAND with ERRINFO = 0 and has no other effect. -/
def Obligations.IllegalWordsRaise : Prop :=
  (∀ w, Legal w ↔ ∃ i, decode w = .ok i) ∧
    ∀ s, BlockNext s → s.busy = true → s.overrun = none → ¬ Legal s.cmd →
      ∃ t, step s = .next t ∧ RaisedFrom s.popTurn t .illegalCommand 0

/-- R93: the example encodings, and the two illegal words it names. -/
def Obligations.ExampleEncodings : Prop :=
  decode 0x00000000 = .ok .nop ∧ decode 0x0110FFFF = .ok (.li 1 0xFFFF) ∧ decode 0x02312000 = .ok (.add 3 1 2) ∧
    decode 0x06000001 = .ok (.setver 1) ∧ decode 0x07000001 = .ok (.setecl 1) ∧
    decode 0x13012000 = .ok (.gfMul 0 1 2) ∧ decode 0x2120001D = .ok (.pPushi 2 0x1D) ∧
    decode 0x26012000 = .ok (.pMod 0 1 2) ∧ decode 0x31200004 = .ok (.bbPut 4 0x4) ∧
    decode 0x3180FFFF = .ok (.bbPut 16 0xFFFF) ∧ decode 0x32050020 = .ok (.bbPutr 5 32) ∧
    decode 0x40210000 = .ok (.tblQ 2 1 0 0) ∧ decode 0x40210109 = .ok (.tblQ 2 1 9 1) ∧
    decode 0x41000000 = .ok .rsEncode ∧ decode 0x50430000 = .ok (.bchFmt 4 3) ∧
    decode 0x64000001 = .ok (.mTypeinfo true) ∧ decode 0x67789000 = .ok (.mRead 7 8 9) ∧
    decode 0x72000000 = .ok (.mBuild false) ∧ decode 0x73000000 = .ok .mSelect ∧
    (∃ e, decode 0x20400000 = .error e) ∧ ∃ e, decode 0x31880000 = .error e

/-! ## The step -/

/-- R63, R68: when the next turn is the block's, it is busy and the word in execution decodes to i, the step is the
meaning of i at that state, then the deferred CMD_OVERRUN; with no refused word it is the meaning alone. The state
`withFetchWord` gives runs the table's word at its very next step. -/
def Obligations.StepRunsTheDecodedCommand : Prop :=
  (∀ s i, BlockNext s → s.busy = true → decode s.cmd = .ok i →
    step s = afterCommand (exec i s.popTurn) ∧
      ∀ t, exec i s.popTurn = .next t → t.overrun = none → step s = .next t) ∧
    ∀ (s : State) w i, decode (BitVec.ofNat 32 w) = .ok i →
      step (s.withFetchWord 32 w) = afterCommand (exec i (s.withFetchWord 32 w))

/-! ## 40_control.md -/

/-- R101 to R105, R111: NOP, LI, LUI, ADD, SUB and XOR complete in every state, with their results mod 2^32; a
destination that is also a source was read before it was written. -/
def Obligations.ScalarCommandsComplete : Prop :=
  ∀ s, Completes .nop s [] (fun _ => True) ∧
    (∀ rd (imm : BitVec 16), WritesReg (.li rd imm) s rd (BitVec.ofInt 32 imm.toInt)) ∧
    (∀ rd (imm : BitVec 16), WritesReg (.lui rd imm) s rd (BitVec.ofNat 32 (imm.toNat * 2 ^ 16))) ∧
    ∀ rd ra rb,
      WritesReg (.add rd ra rb) s rd (BitVec.ofNat 32 (((s.reg ra).toNat + (s.reg rb).toNat) % 2 ^ 32)) ∧
      WritesReg (.sub rd ra rb) s rd (BitVec.ofInt 32 (((s.reg ra).toNat - (s.reg rb).toNat : Int) % 2 ^ 32)) ∧
      WritesReg (.xor rd ra rb) s rd (s.reg ra ^^^ s.reg rb)

/-- R106: RDSR copies the register-map word at the offset, STATUS read with BUSY = 0, as it was before the
command. -/
def Obligations.RdsrReadsTheRegisterMap : Prop :=
  ∀ s rd (off : BitVec 16), off.toNat ≤ 0x0FC → off.toNat % 4 = 0 →
    WritesReg (.rdsr rd off) s rd (regMap s false off.toNat)

/-- R107 to R109: SETVER, SETECL and SETMASK set their register, drop the matrix and (not SETMASK) the stream; a
value outside the register's range raises BAD_PARAMETER with that value. -/
def Obligations.ConfigurationCommands : Prop :=
  ∀ s (imm : BitVec 16),
    (imm.toNat ≤ 40 → Completes (.setver imm) s [.ver, .mstate, .side, .cwReady] fun t =>
      t.conf.ver.toNat = imm.toNat ∧ t.mx.mstate = .none ∧ t.mx.side = 0 ∧ t.cw.ready = false) ∧
    (40 < imm.toNat → Raises (.setver imm) s .badParameter (BitVec.ofNat 32 imm.toNat)) ∧
    (imm.toNat ≤ 3 → Completes (.setecl imm) s [.ecl, .mstate, .side, .cwReady] fun t =>
      t.conf.ecl.toNat = imm.toNat ∧ t.mx.mstate = .none ∧ t.mx.side = 0 ∧ t.cw.ready = false) ∧
    (3 < imm.toNat → Raises (.setecl imm) s .badParameter (BitVec.ofNat 32 imm.toNat)) ∧
    (imm.toNat ≤ 7 → Completes (.setmask imm) s [.mask, .mstate, .side] fun t =>
      t.conf.mask.toNat = imm.toNat ∧ t.mx.mstate = .none ∧ t.mx.side = 0) ∧
    (7 < imm.toNat → Raises (.setmask imm) s .badParameter (BitVec.ofNat 32 imm.toNat))

/-! ## 41_gf.md -/

/-- R120, R121, R123, R124, R129: the seed and the recurrence of EXP, EXP[255], the permutation of 1..255, LOG as
its inverse; gexp is periodic and is α^n, the table product is the product of the field with the polynomial 0x11D,
and gexp(−glog a) is the inverse of a. -/
def Obligations.FieldTablesAndLaws : Prop :=
  (∀ i, i < 8 → (expAt i).toNat = 2 ^ i) ∧
    (∀ i, 8 ≤ i → i < 256 → expAt i = expAt (i - 4) ^^^ expAt (i - 5) ^^^ expAt (i - 6) ^^^ expAt (i - 8)) ∧
    expAt 255 = expAt 0 ∧
    (∀ b : Byte, b ≠ 0 → ∃ i, i < 255 ∧ expAt i = b ∧ alphaPow i = b) ∧
    (∀ i, i < 255 → expAt i ≠ 0 ∧ logAt (expAt i).toNat = i) ∧
    (∀ n, 1 ≤ n → n ≤ 255 → logAt n < 255 ∧ (expAt (logAt n)).toNat = n) ∧
    (∀ n : Int, gexp n = expAt (n % 255).toNat ∧ gexp (n + 255) = gexp n ∧ gexp n = alphaPow (n % 255).toNat) ∧
    (∀ a b : Byte, a ≠ 0 → b ≠ 0 → gfProduct a.toNat b.toNat = .ok (gmul a b)) ∧
    ∀ (a : Byte) l, glog a.toNat = .ok l → gmul a (gexp (-(l : Int))) = 1

/-- R125 to R127: GF_EXP and GF_EXPI give α to the signed exponent and never fail; GF_LOG gives the exponent of a
value 1..255 and raises GF_DOMAIN with any other value. -/
def Obligations.FieldExponentAndLogarithm : Prop :=
  ∀ s rd,
    (∀ ra, WritesReg (.gfExp rd ra) s rd ((alphaPow ((s.reg ra).toInt % 255).toNat).setWidth 32)) ∧
    (∀ imm : BitVec 16, WritesReg (.gfExpi rd imm) s rd ((alphaPow (imm.toInt % 255).toNat).setWidth 32)) ∧
    ∀ ra, (1 ≤ (s.reg ra).toNat → (s.reg ra).toNat ≤ 255 →
        ∃ l, l < 255 ∧ (alphaPow l).setWidth 32 = s.reg ra ∧ WritesReg (.gfLog rd ra) s rd (BitVec.ofNat 32 l)) ∧
      ((s.reg ra).toNat = 0 ∨ 255 < (s.reg ra).toNat → Raises (.gfLog rd ra) s .gfDomain (s.reg ra))

/-- R128: GF_MUL gives the field product of two values 1..255, and raises GF_DOMAIN with the first operand outside
that range, a before b. -/
def Obligations.FieldMultiply : Prop :=
  ∀ s rd ra rb,
    let ok := fun r : Reg => 1 ≤ (s.reg r).toNat ∧ (s.reg r).toNat ≤ 255
    (ok ra → ok rb → WritesReg (.gfMul rd ra rb) s rd
      ((gmul ((s.reg ra).setWidth 8) ((s.reg rb).setWidth 8)).setWidth 32)) ∧
    (¬ ok ra → Raises (.gfMul rd ra rb) s .gfDomain (s.reg ra)) ∧
    (ok ra → ¬ ok rb → Raises (.gfMul rd ra rb) s .gfDomain (s.reg rb))

/-! ## 42_poly.md -/

/-- R144, R148, R152, R153: P_CLR, P_COPY and P_LEN complete in every state, and P_GET on every index below the
length; any other index raises OUT_OF_RANGE_ACCESS with it. -/
def Obligations.PolynomialRegisters : Prop :=
  ∀ s pd (pa : PReg) rd rb,
    WritesPoly (.pClr pd) s pd [] ∧ WritesPoly (.pCopy pd pa) s pd (s.poly pa) ∧
    WritesReg (.pLen rd pa) s rd (BitVec.ofNat 32 (s.poly pa).length) ∧
    (∀ c, (s.poly pa)[(s.reg rb).toNat]? = some c → WritesReg (.pGet rd pa rb) s rd (c.setWidth 32)) ∧
    ((s.poly pa)[(s.reg rb).toNat]? = none → Raises (.pGet rd pa rb) s .outOfRangeAccess (s.reg rb))

/-- R145, R146: P_PUSHI and P_PUSH append one coefficient; a full register raises RESOURCE_OVERFLOW(257), after
P_PUSH has refused a value above 255. -/
def Obligations.PolynomialPush : Prop :=
  ∀ s pd,
    (∀ imm : Byte, ((s.poly pd).length ≠ 256 → WritesPoly (.pPushi pd imm) s pd (s.poly pd ++ [imm])) ∧
      ((s.poly pd).length = 256 → Raises (.pPushi pd imm) s .resourceOverflow 257)) ∧
    ∀ ra,
      (255 < (s.reg ra).toNat → Raises (.pPush pd ra) s .badParameter (s.reg ra)) ∧
      ((s.reg ra).toNat ≤ 255 → (s.poly pd).length = 256 → Raises (.pPush pd ra) s .resourceOverflow 257) ∧
      ((s.reg ra).toNat ≤ 255 → (s.poly pd).length ≠ 256 →
        WritesPoly (.pPush pd ra) s pd (s.poly pd ++ [(s.reg ra).setWidth 8]))

/-- R140, R147: P_NORM on zeros followed by a sequence that is empty or begins with a nonzero coefficient keeps that
sequence and appends `shift` zeros; an empty register raises MALFORMED_POLYNOMIAL, and a result above 256
coefficients RESOURCE_OVERFLOW with its length. -/
def Obligations.PolynomialNormalise : Prop :=
  ∀ s pd (shift : BitVec 16),
    (s.poly pd = [] → Raises (.pNorm pd shift) s .malformedPolynomial 0) ∧
    ∀ z q, s.poly pd = List.replicate z 0 ++ q → q.head? ≠ some 0 → s.poly pd ≠ [] →
      (q.length + shift.toNat ≤ 256 →
        WritesPoly (.pNorm pd shift) s pd (q ++ List.replicate shift.toNat 0)) ∧
      (256 < q.length + shift.toNat →
        Raises (.pNorm pd shift) s .resourceOverflow (BitVec.ofNat 32 (q.length + shift.toNat)))

/-- R141, R149: P_MUL gives the product of two sequences without a zero coefficient, coefficient by coefficient;
otherwise it raises, in the order empty operand, length above 256, zero coefficient. -/
def Obligations.PolynomialProduct : Prop :=
  ∀ s pd pa pb,
    let a := s.poly pa
    let b := s.poly pb
    let n := a.length + b.length - 1
    (a = [] ∨ b = [] → Raises (.pMul pd pa pb) s .malformedPolynomial 0) ∧
    (a ≠ [] → b ≠ [] → 256 < n → Raises (.pMul pd pa pb) s .resourceOverflow (BitVec.ofNat 32 n)) ∧
    (a ≠ [] → b ≠ [] → n ≤ 256 → (0 : Byte) ∈ a ∨ (0 : Byte) ∈ b → Raises (.pMul pd pa pb) s .gfDomain 0) ∧
    (a ≠ [] → b ≠ [] → n ≤ 256 → (0 : Byte) ∉ a → (0 : Byte) ∉ b →
      ∃ q, q.length = n ∧ (∀ k, coef q k = productCoef a b k) ∧ WritesPoly (.pMul pd pa pb) s pd q)

/-- R142, R150: P_MOD gives the remainder: the dividend is a multiple of the divisor plus a result shorter than the
divisor and without leading zeros; a dividend shorter than the divisor is returned unchanged; a zero that the division
meets raises GF_DOMAIN(0), and an empty divisor MALFORMED_POLYNOMIAL. -/
def Obligations.PolynomialRemainder : Prop :=
  ∀ s pd pa pb,
    let a := s.poly pa
    let b := s.poly pb
    (b = [] → Raises (.pMod pd pa pb) s .malformedPolynomial 0) ∧
    (b ≠ [] → a.length < b.length → WritesPoly (.pMod pd pa pb) s pd a) ∧
    (b ≠ [] → b.length ≤ a.length → a.head? = some 0 ∨ (0 : Byte) ∈ b → Raises (.pMod pd pa pb) s .gfDomain 0) ∧
    (b ≠ [] → b.length ≤ a.length → a.head? ≠ some 0 → (0 : Byte) ∉ b →
      ∃ q r, r.length < b.length ∧ r.head? ≠ some 0 ∧ (∀ k, coef a k = productCoef q b k ^^^ coef r k) ∧
        WritesPoly (.pMod pd pa pb) s pd r)

/-- R143, R151: P_GEN gives, for every degree n up to 255, the polynomial of n + 1 coefficients with leading
coefficient 1 whose roots are α^0, …, α^(n-1); it never raises GF_DOMAIN, and a degree above 255 raises
RESOURCE_OVERFLOW with it. -/
def Obligations.GeneratorPolynomial : Prop :=
  ∀ s pd ra,
    ((s.reg ra).toNat ≤ 255 →
      ∃ g, g.length = (s.reg ra).toNat + 1 ∧ g.head? = some 1 ∧
        (∀ i, i < (s.reg ra).toNat → evalAt g (alphaPow i) = 0) ∧ WritesPoly (.pGen pd ra) s pd g) ∧
    (255 < (s.reg ra).toNat → Raises (.pGen pd ra) s .resourceOverflow (s.reg ra))

/-! ## 43_bitbuffer.md -/

/-- R170, R172 to R174: BB_CLR empties the buffer, BB_PUT and BB_PUTR append the low n bits of their value, most
significant first, and all three clear CW_READY; a put that would pass 23648 bits raises CAPACITY_EXCEEDED with the
length it would have reached. For a count that no word encodes (BB_PUT above 16, BB_PUTR above 32) the clauses state
the model's choice of log entry 12 (DESIGN CHOICE), not a rule. -/
def Obligations.BitBufferWrites : Prop :=
  ∀ s,
    Completes .bbClr s [.bb, .cwReady] (fun t => t.bb = [] ∧ t.cw.ready = false) ∧
    (∀ (n : BitVec 5) (imm : BitVec 16),
      (s.bb.length + n.toNat ≤ 23648 → Completes (.bbPut n imm) s [.bb, .cwReady] fun t =>
        t.bb = s.bb ++ msbFirst imm.toNat n.toNat ∧ t.cw.ready = false) ∧
      (23648 < s.bb.length + n.toNat →
        Raises (.bbPut n imm) s .capacityExceeded (BitVec.ofNat 32 (s.bb.length + n.toNat)))) ∧
    ∀ ra (n : BitVec 16),
      (s.bb.length + n.toNat ≤ 23648 → Completes (.bbPutr ra n) s [.bb, .cwReady] fun t =>
        t.bb = s.bb ++ msbFirst (s.reg ra).toNat n.toNat ∧ t.cw.ready = false) ∧
      (23648 < s.bb.length + n.toNat →
        Raises (.bbPutr ra n) s .capacityExceeded (BitVec.ofNat 32 (s.bb.length + n.toNat)))

/-- R171, R175, R176: stream bit k is bit 7 − (k mod 8) of byte ⌊k/8⌋, and the bits at BBLEN and above read 0;
BB_GETBIT and BB_GETBYTE read the bit and the byte at an index below the buffer's count of them; any
other index raises OUT_OF_RANGE_ACCESS with it. -/
def Obligations.BitBufferReads : Prop :=
  (∀ (bb : List Bool) k, (bbByte bb (k / 8)).getLsbD (7 - k % 8) = bb.getD k false) ∧
  ∀ s rd ra,
    let k := (s.reg ra).toNat
    (∀ b : Bool, s.bb[k]? = some b → WritesReg (.bbGetbit rd ra) s rd (if b then 1 else 0)) ∧
    (s.bb.length ≤ k → Raises (.bbGetbit rd ra) s .outOfRangeAccess (s.reg ra)) ∧
    (8 * k < s.bb.length → ∃ v : Byte, (∀ i, i < 8 → v.getLsbD (7 - i) = s.bb.getD (8 * k + i) false) ∧
      WritesReg (.bbGetbyte rd ra) s rd (v.setWidth 32)) ∧
    (s.bb.length ≤ 8 * k → Raises (.bbGetbyte rd ra) s .outOfRangeAccess (s.reg ra))

/-- R177 to R179: BB_FINAL appends the terminator when 4 bits remain, zero bits to a byte boundary, and 0xEC, 0x11
alternating up to exactly the data capacity; it clears CW_READY. -/
def Obligations.BitBufferFinal : Prop :=
  ∀ s,
    let c := capOf s.conf.ver.toNat s.conf.ecl.toNat * 8
    let n := s.bb.length
    let ended := if n + 4 ≤ c then n + 4 else n
    let zeros := (ended + 7) / 8 * 8 - n
    (s.conf.ver = 0 → Raises .bbFinal s .badParameter 0) ∧
    (s.conf.ver ≠ 0 → c < n → Raises .bbFinal s .capacityExceeded (BitVec.ofNat 32 n)) ∧
    (s.conf.ver ≠ 0 → n ≤ c → Completes .bbFinal s [.bb, .cwReady] fun t =>
      t.cw.ready = false ∧ t.bb.length = c ∧
      t.bb = s.bb ++ List.replicate zeros false ++
        (List.range ((c - n - zeros) / 8)).flatMap fun k => msbFirst (if k % 2 = 0 then 0xEC else 0x11) 8)

/-! ## 44_host_segments.md -/

/-- R198: the host's version search gives the first version 1..40 at which the stream fits the data capacity, and
fails exactly when none fits. It goes by the lengths of R191 alone, which is the model's choice where a segment holds
an invalid character (log entry 18). -/
def Obligations.VersionSearchIsFirstFit : Prop :=
  ∀ alnum e segs,
    let fits := fun v => segmentsBits alnum v segs ≤ capOf v e * 8
    (∀ v, versionSearch alnum e segs = .ok v ↔
      (1 ≤ v ∧ v ≤ 40 ∧ fits v ∧ ∀ u, 1 ≤ u → u < v → ¬ fits u)) ∧
    (versionSearch alnum e segs = .error .capacityExceeded ↔ ∀ v, 1 ≤ v → v ≤ 40 → ¬ fits v)

/-! ## 45_blocks_rs.md -/

/-- R210, R212, R213: total(v) is the same for all four levels and ec(v, e) for every block; TBL_Q gives each
selector's value for the version in R[ra], whatever VER holds; a version outside 1..40 raises BAD_PARAMETER, and then
an index at or past its range OUT_OF_RANGE_ACCESS. For a selector and index that no word encodes (a selector above 11;
an index other than 0 with a selector that uses none) the clauses state the model's choice of log entry 12 (DESIGN
CHOICE), not a rule. -/
def Obligations.TableQuery : Prop :=
  (∀ v e, 1 ≤ v → v ≤ 40 → e < 4 → blocksOf v e ≠ [] ∧
    ((blocksOf v e).map BlockGroup.total).sum = ((blocksOf v 0).map BlockGroup.total).sum ∧
    ∀ b ∈ blocksOf v e, b.data + ecOf v e = b.total) ∧
  ∀ s rd ra (k : Byte),
    let v := (s.reg ra).toNat
    let e := s.conf.ecl.toNat
    let ok := 1 ≤ v ∧ v ≤ 40
    let gives := fun (sel : Byte) (x : Nat) => WritesReg (.tblQ rd ra sel k) s rd (BitVec.ofNat 32 x)
    let refuses := fun (sel : Byte) => Raises (.tblQ rd ra sel k) s .outOfRangeAccess (BitVec.ofNat 32 k.toNat)
    (¬ ok → ∀ sel : Byte, Raises (.tblQ rd ra sel k) s .badParameter (s.reg ra)) ∧
    (ok → gives 0 ((blocksOf v e).map BlockGroup.data).sum ∧ gives 1 ((blocksOf v e).map BlockGroup.total).sum ∧
      gives 2 (blocksOf v e).length ∧ gives 3 (ecOf v e) ∧ gives 4 (blockRow v e).length ∧
      gives 8 (alignPos v).length ∧ gives 10 (remainderBits v) ∧ gives 11 (4 * v + 17)) ∧
    (ok → ∀ g, (blockRow v e)[k.toNat]? = some g → gives 5 g.count ∧ gives 6 g.total ∧ gives 7 g.data) ∧
    (ok → (blockRow v e)[k.toNat]? = none → refuses 5 ∧ refuses 6 ∧ refuses 7) ∧
    (ok → ∀ p, (alignPos v)[k.toNat]? = some p → gives 9 p) ∧
    (ok → (alignPos v)[k.toNat]? = none → refuses 9)

/-- R214 to R216: for every version and level, the codewords of a full buffer are its bytes cut into the blocks,
each block followed by ec codewords that make it a codeword of the Reed-Solomon code with the roots α^0, …,
α^(ec−1), all emitted column by column, data first; the stream has total(v) bytes. -/
def Obligations.ReedSolomonCodewords : Prop :=
  ∀ v e (bb : List Bool), 1 ≤ v → v ≤ 40 → e < 4 → bb.length = capOf v e * 8 →
    ∃ D E : List (List Byte),
      D.flatten = (List.range (capOf v e)).map (bbByte bb) ∧
      D.map List.length = (blocksOf v e).map BlockGroup.data ∧
      E.length = D.length ∧ (∀ x ∈ E, x.length = ecOf v e) ∧
      (∀ (r : Nat) d x, D[r]? = some d → E[r]? = some x → ∀ i, i < ecOf v e → evalAt (d ++ x) (alphaPow i) = 0) ∧
      (byColumns D ++ byColumns E).length = totalOf v ∧
      codewordsOf v e bb = .ok (byColumns D ++ byColumns E)

/-- R217: RS_ENCODE stores the stream at CWM[0..], sets CWLEN and CW_READY, and leaves every other byte of CWM; VER =
0 raises BAD_PARAMETER(0), and a buffer that is not exactly full SEQUENCE_ERROR with BBLEN. -/
def Obligations.RsEncode : Prop :=
  ∀ s : State,
    let v := s.conf.ver.toNat
    let e := s.conf.ecl.toNat
    (s.conf.ver = 0 → Raises .rsEncode s .badParameter 0) ∧
    (s.conf.ver ≠ 0 → s.bb.length ≠ capOf v e * 8 →
      Raises .rsEncode s .sequenceError (BitVec.ofNat 32 s.bb.length)) ∧
    (s.MemOk → s.conf.ver ≠ 0 → v ≤ 40 → s.bb.length = capOf v e * 8 →
      ∃ S, codewordsOf v e s.bb = .ok S ∧ Completes .rsEncode s [.cwm, .cwLen, .cwReady] fun t =>
        t.cw.ready = true ∧ t.cw.len.toNat = S.length ∧ S.length = totalOf v ∧
        (∀ (k : Nat) x, S[k]? = some x → t.cwm k = x) ∧ ∀ k, S.length ≤ k → t.cwm k = s.cwm k)

/-- R218, R272: CW_RD reads a codeword of a valid stream, and M_READ the code of a cell of the square; the sequence
check comes before the range check. -/
def Obligations.GuardedReads : Prop :=
  ∀ s rd ra rb,
    let k := (s.reg ra).toNat
    let c := (s.reg rb).toNat
    (s.cw.ready = false → Raises (.cwRd rd ra) s .sequenceError (BitVec.ofNat 32 (statusNat s false))) ∧
    (s.cw.ready = true → s.cw.len.toNat ≤ k → Raises (.cwRd rd ra) s .outOfRangeAccess (s.reg ra)) ∧
    (s.cw.ready = true → k < s.cw.len.toNat → WritesReg (.cwRd rd ra) s rd ((s.cwm k).setWidth 32)) ∧
    (s.mx.mstate = .none →
      Raises (.mRead rd ra rb) s .sequenceError (BitVec.ofNat 32 (statusNat s false))) ∧
    (s.mx.mstate ≠ .none → s.side ≤ k ∨ s.side ≤ c →
      Raises (.mRead rd ra rb) s .outOfRangeAccess (BitVec.ofNat 32 (k % 2 ^ 16 * 2 ^ 16 + c % 2 ^ 16))) ∧
    (s.mx.mstate ≠ .none → k < s.side → c < s.side →
      WritesReg (.mRead rd ra rb) s rd
        (match cell s k c with | .unset => 0 | .light => 2 | .dark => 3))

/-! ## 46_bch.md -/

/-- R243 to R246: BCH_FMT gives the 5 data bits and their remainder by 0x537, masked with 0x5412; BCH_VER the 6 data
bits and their remainder by 0x1F25; a wider value raises BAD_PARAMETER with it. -/
def Obligations.BchCommands : Prop :=
  ∀ s rd ra,
    let x := (s.reg ra).toNat
    (x ≤ 31 → ∃ q r, r < 2 ^ 10 ∧ x * 2 ^ 10 = carryless q 0x537 ^^^ r ∧
      WritesReg (.bchFmt rd ra) s rd (BitVec.ofNat 32 ((x * 2 ^ 10 + r) ^^^ 0x5412))) ∧
    (31 < x → Raises (.bchFmt rd ra) s .badParameter (s.reg ra)) ∧
    (x ≤ 63 → ∃ q r, r < 2 ^ 12 ∧ x * 2 ^ 12 = carryless q 0x1F25 ^^^ r ∧
      WritesReg (.bchVer rd ra) s rd (BitVec.ofNat 32 (x * 2 ^ 12 + r))) ∧
    (63 < x → Raises (.bchVer rd ra) s .badParameter (s.reg ra))

/-- R247, R248: the format word of every level and mask, and of every 5-bit data value, and the version word of every
version from 7 on. -/
def Obligations.BchTables : Prop :=
  ((List.range 4).map fun e => (List.range 8).map fun m => formatWord e m) =
      [[0x77C4, 0x72F3, 0x7DAA, 0x789D, 0x662F, 0x6318, 0x6C41, 0x6976],
        [0x5412, 0x5125, 0x5E7C, 0x5B4B, 0x45F9, 0x40CE, 0x4F97, 0x4AA0],
        [0x355F, 0x3068, 0x3F31, 0x3A06, 0x24B4, 0x2183, 0x2EDA, 0x2BED],
        [0x1689, 0x13BE, 0x1CE7, 0x19D0, 0x0762, 0x0255, 0x0D0C, 0x083B]] ∧
    ((List.range 32).map bchFmtWord) =
      [0x5412, 0x5125, 0x5E7C, 0x5B4B, 0x45F9, 0x40CE, 0x4F97, 0x4AA0, 0x77C4, 0x72F3, 0x7DAA, 0x789D]
        ++ [0x662F, 0x6318, 0x6C41, 0x6976, 0x1689, 0x13BE, 0x1CE7, 0x19D0, 0x0762, 0x0255, 0x0D0C, 0x083B]
        ++ [0x355F, 0x3068, 0x3F31, 0x3A06, 0x24B4, 0x2183, 0x2EDA, 0x2BED] ∧
    ((List.range 34).map fun k => bchVerWord (k + 7)) =
      [0x07C94, 0x085BC, 0x09A99, 0x0A4D3, 0x0BBF6, 0x0C762, 0x0D847, 0x0E60D, 0x0F928, 0x10B78, 0x1145D, 0x12A17]
        ++ [0x13532, 0x149A6, 0x15683, 0x168C9, 0x177EC, 0x18EC4, 0x191E1, 0x1AFAB, 0x1B08E, 0x1CC1A, 0x1D33F]
        ++ [0x1ED75, 0x1F250, 0x209D5, 0x216F0, 0x228BA, 0x2379F, 0x24B0B, 0x2542E, 0x26A64, 0x27541, 0x28C69]

/-! ## 47_matrix.md -/

/-- R257: M_INIT sets SIDE to 4 · VER + 17 and every cell of the square UNSET, in any build state; VER = 0 raises
BAD_PARAMETER(0). -/
def Obligations.MatrixInit : Prop :=
  ∀ s : State,
    let n := 4 * s.conf.ver.toNat + 17
    (s.conf.ver = 0 → Raises .mInit s .badParameter 0) ∧
    (s.MemOk → s.conf.ver ≠ 0 → s.conf.ver.toNat ≤ 40 →
      Completes .mInit s [.side, .mat, .mstate, .mtest] fun t =>
        t.side = n ∧ t.mx.mstate = .empty ∧ t.mx.mtest = false ∧
        (∀ r c, r < n → c < n → cell t r c = .unset) ∧
        ∀ r c, n ≤ r ∨ n ≤ c → cell t r c = cell s r c)

/-- R258, R259: M_PROBES stamps the three finders with their separators, by rings around their centres, into UNSET
cells; it requires MSTATE = EMPTY. -/
def Obligations.FinderPatterns : Prop :=
  ∀ s : State,
    (s.mx.mstate ≠ .empty → Raises .mProbes s .sequenceError (BitVec.ofNat 32 (statusNat s false))) ∧
    (s.MemOk → 21 ≤ s.side → s.mx.mstate = .empty → Completes .mProbes s [.mat, .mstate] fun t =>
      t.mx.mstate = .probes ∧ ∀ r c, cell t r c =
        match finderCell s.side r c with
        | some dark => if cell s r c = .unset then (if dark then .dark else .light) else cell s r c
        | none => cell s r c)

/-- R260 to R262: M_ALIGN stamps a 5 × 5 pattern at every pair of positions whose centre is UNSET, dark but for the
ring at distance 1, into UNSET cells; it requires MSTATE = PROBES. -/
def Obligations.AlignmentPatterns : Prop :=
  ∀ s : State,
    let pos := alignPos s.conf.ver.toNat
    let stamped := fun R C r c =>
      R ∈ pos ∧ C ∈ pos ∧ cell s R C = .unset ∧ distance r R ≤ 2 ∧ distance c C ≤ 2 ∧ cell s r c = .unset
    (s.mx.mstate ≠ .probes → Raises .mAlign s .sequenceError (BitVec.ofNat 32 (statusNat s false))) ∧
    (s.MemOk → s.mx.mstate = .probes → Completes .mAlign s [.mat, .mstate] fun t =>
      t.mx.mstate = .align ∧
      (∀ R C r c, stamped R C r c →
        cell t r c = if max (distance r R) (distance c C) = 1 then .light else .dark) ∧
      ∀ r c, (¬ ∃ R C, stamped R C r c) → cell t r c = cell s r c)

/-- R263, R264: M_TIMING sets the UNSET cells of row 6 and column 6, dark on an even index, and no other; it requires
MSTATE = ALIGN. -/
def Obligations.TimingPatterns : Prop :=
  ∀ s : State,
    let timing := fun r c => cell s r c = .unset ∧ ((c = 6 ∧ r < s.side) ∨ (r = 6 ∧ c < s.side))
    (s.mx.mstate ≠ .align → Raises .mTiming s .sequenceError (BitVec.ofNat 32 (statusNat s false))) ∧
    (s.MemOk → s.mx.mstate = .align → Completes .mTiming s [.mat, .mstate] fun t =>
      t.mx.mstate = .timing ∧
      (∀ r c, timing r c → cell t r c = if (r + c) % 2 = 0 then .dark else .light) ∧
      ∀ r c, ¬ timing r c → cell t r c = cell s r c)

/-- R265 to R267: M_TYPEINFO writes bit i of the format word to A(i) and B(i) and the dark module at (n − 8, 8), all
31 cells LIGHT in a test build, into UNSET cells and no other; it requires MSTATE = TIMING. -/
def Obligations.FormatInformation : Prop :=
  ∀ (s : State) (test : Bool),
    let n := s.side
    let A := fun i => if i ≤ 5 then (i, 8) else if i ≤ 7 then (i + 1, 8) else (n - 15 + i, 8)
    let B := fun i => if i ≤ 7 then (8, n - 1 - i) else if i = 8 then (8, 7) else (8, 14 - i)
    let colour := fun dark : Bool => if !test && dark then MCell.dark else MCell.light
    (s.mx.mstate ≠ .timing →
      Raises (.mTypeinfo test) s .sequenceError (BitVec.ofNat 32 (statusNat s false))) ∧
    (s.MemOk → 21 ≤ n → s.mx.mstate = .timing →
      Completes (.mTypeinfo test) s [.mat, .mstate, .mtest] fun t =>
        t.mx.mstate = .typeinfo ∧ t.mx.mtest = (s.mx.mtest || test) ∧
        (∀ i, i < 15 → cell s (A i).1 (A i).2 = .unset →
          cell t (A i).1 (A i).2 = colour ((formatOf s).testBit i)) ∧
        (∀ i, i < 15 → cell s (B i).1 (B i).2 = .unset →
          cell t (B i).1 (B i).2 = colour ((formatOf s).testBit i)) ∧
        (cell s (n - 8) 8 = .unset → cell t (n - 8) 8 = colour true) ∧
        ∀ r c, (cell s r c ≠ .unset ∨ ((∀ i, i < 15 → (r, c) ≠ A i ∧ (r, c) ≠ B i) ∧ (r, c) ≠ (n - 8, 8))) →
          cell t r c = cell s r c)

/-- R268, R269: from version 7 on M_TYPENUM writes bit i of the version word to V1(i) and V2(i), LIGHT in a test
build, into UNSET cells and no other; below version 7 it writes no cell; it requires MSTATE = TYPEINFO. -/
def Obligations.VersionInformation : Prop :=
  ∀ (s : State) (test : Bool),
    let n := s.side
    let v := s.conf.ver.toNat
    let colour := fun dark : Bool => if !test && dark then MCell.dark else MCell.light
    (s.mx.mstate ≠ .typeinfo →
      Raises (.mTypenum test) s .sequenceError (BitVec.ofNat 32 (statusNat s false))) ∧
    (s.MemOk → 21 ≤ n → s.mx.mstate = .typeinfo →
      Completes (.mTypenum test) s [.mat, .mstate, .mtest] fun t =>
        t.mx.mstate = .typenum ∧ t.mx.mtest = (s.mx.mtest || test) ∧
        (7 ≤ v → ∀ i, i < 18 → cell s (i / 3) (n - 11 + i % 3) = .unset →
          cell t (i / 3) (n - 11 + i % 3) = colour ((bchVerWord v).testBit i)) ∧
        (7 ≤ v → ∀ i, i < 18 → cell s (n - 11 + i % 3) (i / 3) = .unset →
          cell t (n - 11 + i % 3) (i / 3) = colour ((bchVerWord v).testBit i)) ∧
        ∀ r c, (v < 7 ∨ cell s r c ≠ .unset ∨
            ∀ i, i < 18 → (r, c) ≠ (i / 3, n - 11 + i % 3) ∧ (r, c) ≠ (n - 11 + i % 3, i / 3)) →
          cell t r c = cell s r c)

/-- R270: the model's walk is the snake of column pairs from the right, without column 6, and on every symbol it
visits each cell outside column 6 exactly once. -/
def Obligations.MappingWalk : Prop :=
  ∀ v, 1 ≤ v → v ≤ 40 →
    let n := 4 * v + 17
    walk n = snake n ∧ (walk n).Nodup ∧ ∀ r c, (r, c) ∈ walk n ↔ r < n ∧ c < n ∧ c ≠ 6

/-- R270, R271: M_MAP gives the j-th UNSET cell of the walk bit j of the stream (0 past its end), inverted where the
mask says so, and writes no other cell; it requires TYPENUM, or TYPEINFO below version 7, and a valid stream. -/
def Obligations.DataMapping : Prop :=
  ∀ s : State,
    let ok := s.mx.mstate = .typenum ∨ (s.mx.mstate = .typeinfo ∧ s.conf.ver.toNat < 7)
    let free := (snake s.side).filter fun p => cell s p.1 p.2 = .unset
    (¬ ok ∨ s.cw.ready = false → Raises .mMap s .sequenceError (BitVec.ofNat 32 (statusNat s false))) ∧
    (s.MemOk → s.Shaped → ok → s.cw.ready = true → Completes .mMap s [.mat, .mstate] fun t =>
      t.mx.mstate = .mapped ∧
      (∀ (j : Nat) r c, free[j]? = some (r, c) →
        cell t r c = if xor (streamBit s j) (maskf s.conf.mask.toNat r c) then .dark else .light) ∧
      ∀ r c, (r, c) ∉ free → cell t r c = cell s r c)

/-! ## 48_mask_select.md -/

/-- R300, R301: each mask inverts exactly where the expression of its row is 0, and the rows and columns 0..5 are as
the table lists them. MASKQ gives the current mask's function at any row and column 0..176, in every build state;
above 176 it raises OUT_OF_RANGE_ACCESS with the row, or else with the column. -/
def Obligations.MaskFunctionsAndQuery : Prop :=
  (∀ i j, (maskf 0 i j = true ↔ (i + j) % 2 = 0) ∧ (maskf 1 i j = true ↔ i % 2 = 0) ∧
    (maskf 2 i j = true ↔ j % 3 = 0) ∧ (maskf 3 i j = true ↔ (i + j) % 3 = 0) ∧
    (maskf 4 i j = true ↔ (i / 2 + j / 3) % 2 = 0) ∧ (maskf 5 i j = true ↔ (i * j) % 2 + (i * j) % 3 = 0) ∧
    (maskf 6 i j = true ↔ ((i * j) % 2 + (i * j) % 3) % 2 = 0) ∧
    (maskf 7 i j = true ↔ ((i * j) % 3 + (i + j) % 2) % 2 = 0)) ∧
  ((List.range 8).map fun m => (List.range 6).map fun i =>
      (List.range 6).foldl (fun acc j => 2 * acc + (maskf m i j).toNat) 0) =
    [[0b101010, 0b010101, 0b101010, 0b010101, 0b101010, 0b010101],
      [0b111111, 0b000000, 0b111111, 0b000000, 0b111111, 0b000000],
      [0b100100, 0b100100, 0b100100, 0b100100, 0b100100, 0b100100],
      [0b100100, 0b001001, 0b010010, 0b100100, 0b001001, 0b010010],
      [0b111000, 0b111000, 0b000111, 0b000111, 0b111000, 0b111000],
      [0b111111, 0b100000, 0b100100, 0b101010, 0b100100, 0b100000],
      [0b111111, 0b111000, 0b110110, 0b101010, 0b101101, 0b100011],
      [0b101010, 0b000111, 0b100011, 0b010101, 0b111000, 0b011100]] ∧
  ∀ s rd ra rb,
    let i := (s.reg ra).toNat
    let j := (s.reg rb).toNat
    (i ≤ 176 → j ≤ 176 →
      WritesReg (.maskq rd ra rb) s rd (if maskf s.conf.mask.toNat i j then 1 else 0)) ∧
    (176 < i → Raises (.maskq rd ra rb) s .outOfRangeAccess (s.reg ra)) ∧
    (i ≤ 176 → 176 < j → Raises (.maskq rd ra rb) s .outOfRangeAccess (s.reg rb))

/-- R302 to R307: M_SCORE stores the four penalties, the count of dark modules and SCORE = (P1 + P2 + P3) · T +
PEN4NUM, each as the exact number; it requires MAPPED or SCORED and leaves MAT. -/
def Obligations.PenaltyScore : Prop :=
  ∀ s : State,
    let n := s.side
    let ok := s.mx.mstate = .mapped ∨ s.mx.mstate = .scored
    let p4 := pen4num s.inst.n4Mode (darkModules s n) (n * n)
    (¬ ok → Raises .mScore s .sequenceError (BitVec.ofNat 32 (statusNat s false))) ∧
    (ok → n ≤ 177 → Completes .mScore s [.score, .mstate] fun t =>
      t.mx.mstate = .scored ∧ t.score.pen1.toNat = pen1 s n ∧ t.score.pen2.toNat = pen2 s n ∧
      t.score.pen3.toNat = pen3 s n ∧ t.score.pen4num.toNat = p4 ∧ t.score.dark.toNat = darkModules s n ∧
      t.score.score.toNat = (pen1 s n + pen2 s n + pen3 s n) * (n * n) + p4)

/-- R308, R274: M_BUILD sets SIDE, MTEST and MSTATE, leaves no cell of the square UNSET and changes no cell outside
it, from any build state; VER = 0 raises BAD_PARAMETER(0), and an invalid stream SEQUENCE_ERROR. -/
def Obligations.BuildResolvesEveryModule : Prop :=
  ∀ (s : State) (test : Bool),
    let n := 4 * s.conf.ver.toNat + 17
    (s.conf.ver = 0 → Raises (.mBuild test) s .badParameter 0) ∧
    (s.conf.ver ≠ 0 → s.cw.ready = false →
      Raises (.mBuild test) s .sequenceError (BitVec.ofNat 32 (statusNat s false))) ∧
    (s.MemOk → s.conf.ver ≠ 0 → s.conf.ver.toNat ≤ 40 → s.cw.ready = true →
      Completes (.mBuild test) s [.side, .mat, .mstate, .mtest] fun t =>
        t.side = n ∧ t.mx.mstate = .mapped ∧ t.mx.mtest = test ∧
        (∀ r c, r < n → c < n → cell t r c ≠ .unset) ∧
        ∀ r c, n ≤ r ∨ n ≤ c → cell t r c = cell s r c)

/-- R308: M_BUILD leaves the matrix that the seven separate commands leave. -/
def Obligations.BuildIsTheSevenCommands : Prop :=
  ∀ (s : State) (test : Bool), s.conf.ver ≠ 0 → s.conf.ver.toNat ≤ 40 → s.cw.ready = true →
    ∃ s1 s2 s3 s4 s5 s6 s7 u,
      exec .mInit s = .next s1 ∧ exec .mProbes s1 = .next s2 ∧ exec .mAlign s2 = .next s3 ∧
      exec .mTiming s3 = .next s4 ∧ exec (.mTypeinfo test) s4 = .next s5 ∧
      exec (.mTypenum test) s5 = .next s6 ∧ exec .mMap s6 = .next s7 ∧
      exec (.mBuild test) s = .next u ∧ u.mx = s7.mx ∧ u.error = s7.error

/-- R265, R266, R308, R311: after a real build the format word of (ECL, MASK) reads back at A(0..14) and at B(0..14),
the dark module is dark, and from version 7 on the version word reads back at V1 and V2. -/
def Obligations.RealBuildCarriesItsInformation : Prop :=
  ∀ s t : State, s.MemOk → s.conf.ver ≠ 0 → s.conf.ver.toNat ≤ 40 → s.cw.ready = true →
    exec (.mBuild false) s = .next t →
      let n := 4 * s.conf.ver.toNat + 17
      let colour := fun dark : Bool => if dark then MCell.dark else MCell.light
      (∀ i, i < 15 →
        cell t (posA n i).1 (posA n i).2 = colour ((formatOf s).testBit i) ∧
        cell t (posB n i).1 (posB n i).2 = colour ((formatOf s).testBit i)) ∧
      cell t (n - 8) 8 = .dark ∧
      (7 ≤ s.conf.ver.toNat → ∀ i, i < 18 →
        cell t (i / 3) (n - 11 + i % 3) = colour ((bchVerWord s.conf.ver.toNat).testBit i) ∧
        cell t (n - 11 + i % 3) (i / 3) = colour ((bchVerWord s.conf.ver.toNat).testBit i))

/-- R309 to R311: M_SELECT's trial scores are those of M_BUILD 1 and M_SCORE under each mask, it keeps the least mask
of minimal score, its score registers are that trial's, and its matrix is that of M_BUILD 0 under that mask. -/
def Obligations.MaskSelection : Prop :=
  ∀ s : State,
    let under := fun m : BitVec 3 => { s with conf := { s.conf with mask := m } }
    (s.conf.ver = 0 → Raises .mSelect s .badParameter 0) ∧
    (s.conf.ver ≠ 0 → s.cw.ready = false →
      Raises .mSelect s .sequenceError (BitVec.ofNat 32 (statusNat s false))) ∧
    (s.conf.ver ≠ 0 → s.conf.ver.toNat ≤ 40 → s.cw.ready = true →
      Completes .mSelect s [.mask, .sel, .score, .side, .mat, .mstate, .mtest] fun t =>
        let best : Fin 8 := Fin.ofNat 8 t.sel.bestMask.toNat
        t.conf.mask = t.sel.bestMask ∧
        (∀ m : Fin 8, ∃ u v, exec (.mBuild true) (under (BitVec.ofNat 3 m.val)) = .next u ∧
          exec .mScore u = .next v ∧ t.sel.selScore[m] = v.score.score ∧ (m = best → t.score = v.score)) ∧
        (∀ m : Fin 8, t.sel.selScore[best] ≤ t.sel.selScore[m] ∧
          (m < best → t.sel.selScore[best] < t.sel.selScore[m])) ∧
        ∃ u, exec (.mBuild false) (under t.sel.bestMask) = .next u ∧ t.mx = u.mx)

/-! ## 60_exceptions.md -/

/-- R68, R333, R338, R371: every command of every state ends in a next state, and in one of two ways: it completes,
counted and with the error record as it was, or it raises, and then the error record is all it wrote. -/
def Obligations.EveryCommandCompletesOrRaises : Prop :=
  ∀ i s, Completes i s
      [.regs, .polys, .ver, .ecl, .mask, .bb, .cwm, .cwLen, .cwReady, .mat, .side, .mstate, .mtest, .score, .sel]
      (fun _ => True) ∨
    ∃ code info, code.raisable ∧ Raises i s code info

/-- R335, R336: while halted, no turn but a reset changes anything of the block, the turn is taken, and reads show
the error record and the state. -/
def Obligations.HaltedUntilReset : Prop :=
  ∀ s, s.Halted → s.busy = false →
    (s.outside.turns = [] → step s = .next s) ∧
    ∀ x rest, NextTurn s x rest → ¬ IsReset s x →
      ∃ t, step s = .next t ∧ BlockUnchanged s t ∧ t.outside.turns = rest ∧
        ∀ addr off, x = .read addr → Selects s addr off → t.outside.readData = some (regMap s false off)

/-- R337: a word written while the block is busy never executes: the command in execution ends as it would have
without the write, and then CMD_OVERRUN is recorded, with the count after it, unless that command raised an error of
its own. -/
def Obligations.CommandOverrun : Prop :=
  ∀ s addr w rest, NextTurn s (.write addr w) (.block :: rest) → Selects s addr 0x100 → s.outside.rstN = true →
    s.busy = true → s.error.err = false → s.overrun = none →
    let quiet := { s with outside := { s.outside with turns := .block :: rest } }
    ∃ s1 u t, step s = .next s1 ∧ step quiet = .next u ∧ step s1 = .next t ∧
      (u.error.err = false →
        t = { u with error := { err := true, code := .cmdOverrun, cmd := w, info := 0, cnt := u.cmdCnt } }) ∧
      (u.error.err = true → t = u)

/-! ## 70_reset_and_hazards.md -/

/-- R360: after a reset, soft or by RST_N, every element holds the value of the table, and STATUS, CFG and ID read as
it says. -/
def Obligations.ResetState : Prop :=
  (∀ p o, ResetValues (State.resetOf p o) ∧ regMap (State.resetOf p o) false 0x004 = 0 ∧
    regMap (State.resetOf p o) false 0x01C = BitVec.ofNat 32 (match p.n4Mode with | .exact => 0 | .floor => 2 ^ 16) ∧
    regMap (State.resetOf p o) false 0x000 = 0x51524331) ∧
  ∀ s x rest, NextTurn s x rest → IsReset s x → s.outside.rstN = true →
    ∃ t, step s = .next t ∧ ResetValues t ∧ t.inst = s.inst

/-- R43, R361: a CTRL write with bit 0 = 1 resets the block at once, whether it is idle, busy or halted, and a command
in execution is abandoned; STATUS then reads 0; with bit 0 = 0 the write does nothing. Besides RST_N it is the only
way out of the halted state. -/
def Obligations.SoftReset : Prop :=
  (∀ s addr w rest, NextTurn s (.write addr w) rest → Selects s addr 0x104 → s.outside.rstN = true →
    step s = .next (if w.getLsbD 0 then State.resetOf s.inst s.popTurn.outside else s.popTurn)) ∧
  (∀ p o, regMap (State.resetOf p o) false 0x004 = 0) ∧
  ∀ s t, s.Halted → s.busy = false → step s = .next t → ¬ t.Halted →
    ∃ x rest, NextTurn s x rest ∧ IsReset s x

/-- R362: RST_N = 0 puts the block in the reset state and holds it there: writes are ignored and reads return the
reset values; when RST_N returns to 1 the block is idle and accepts the next CMD write. The power-on state is the
reset state. -/
def Obligations.HardwareReset : Prop :=
  (∀ s rest, NextTurn s (.rstN false) rest →
    ∃ t, step s = .next t ∧ t = State.resetOf s.inst t.outside ∧ t.outside.rstN = false) ∧
  State.reset = State.resetOf State.reset.inst State.reset.outside ∧
  ∀ s, s.outside.rstN = false → s = State.resetOf s.inst s.outside →
    (∀ x rest, NextTurn s x rest → x ≠ .rstN true →
      ∃ t, step s = .next t ∧ t = State.resetOf s.inst t.outside ∧ t.outside.rstN = false ∧
        ∀ addr off, x = .read addr → Selects s addr off →
          t.outside.readData = some (regMap (State.resetOf s.inst s.outside) false off)) ∧
    ∀ addr w rest, NextTurn s (.rstN true) (.write addr w :: rest) → Selects s addr 0x100 →
      ∃ t u, step s = .next t ∧ t = State.resetOf s.inst t.outside ∧ t.busy = false ∧
        step t = .next u ∧ u.busy = true ∧ u.cmd = w

/-- R366, R367: a host that keeps its duty (each CMD write, the block's turn, the STATUS read) never causes
CMD_OVERRUN and never sees an unspecified value, whatever commands it writes; the block is idle after each. The
turns of a command are the model's form of the host (assumption 2). -/
def Obligations.DutifulHostSeesNoOverrun : Prop :=
  ∀ (is : List Instr) s, s.busy = false → s.outside.rstN = true → s.overrun = none → s.error.code ≠ .cmdOverrun →
    s.outside.turns = hostTurns s.inst.blockBase is →
    ∃ t, Runs (3 * is.length) s t ∧ t.error.code ≠ .cmdOverrun ∧ t.outside.draws = s.outside.draws ∧
      t.busy = false ∧ t.outside.turns = []

/-- R360: what the spec leaves unspecified in CWM and MAT is never observed: two sound states that agree on the rest
step to states that agree on the rest, through every turn of the block and of the host. -/
def Obligations.UnspecifiedContentsAreUnobservable : Prop :=
  ∀ s s' t, s.MemOk → s'.MemOk → s.Shaped → Agree s s' → step s = .next t →
    ∃ t', step s' = .next t' ∧ Agree t t'

/-! ## Invariants -/

/-- The state after reset is sound. -/
def Obligations.ResetIsSound : Prop :=
  ∀ s, s = State.reset ∨ (∃ p o, s = State.resetOf p o) →
    s.MemOk ∧ s.Shaped ∧ s.StreamOk ∧ s.BuildOk ∧ s.ControlOk

/-- Every step keeps the canonical form of the memories. -/
def Obligations.StepKeepsMemOk : Prop := ∀ s t, s.MemOk → step s = .next t → t.MemOk

/-- R22 to R27: every step keeps the ranges of the elements, and SIDE = 4 · VER + 17 while there is a matrix. -/
def Obligations.StepKeepsShaped : Prop := ∀ s t, s.Shaped → step s = .next t → t.Shaped

/-- R26: every step keeps that a ready stream is the codeword stream of the buffer at the current VER and ECL. -/
def Obligations.StepKeepsStreamOk : Prop :=
  ∀ s t, s.MemOk → s.Shaped → s.StreamOk → step s = .next t → t.StreamOk

/-- R263, R274: every step keeps that row 6 and column 6 are set from M_TIMING on, and the whole square from the
mapping on. -/
def Obligations.StepKeepsBuildOk : Prop :=
  ∀ s t, s.MemOk → s.Shaped → s.BuildOk → step s = .next t → t.BuildOk

/-- R32, R333 to R337, R362: every step keeps that the error record, BUSY, the refused word and the reset pin fit
together. -/
def Obligations.StepKeepsControlOk : Prop := ∀ s t, s.ControlOk → step s = .next t → t.ControlOk

/-! ## The host on the block -/

/-- R199, R272, R345: a caller's isDark(row, col), as the host makes it on an idle, error-free block with a matrix, is
whether the cell is DARK, for a row and a column inside the side, and leaves the matrix; any other row or column, of
whatever size or sign, ends in OutOfRangeAccess (4). The commands that load the operands, and the registers they
use, are the model's choice (log entries 10 and 20). -/
def Obligations.HostIsDarkReadsTheCell : Prop :=
  ∀ (s : State) (row col : Int), s.busy = false → s.error.err = false → s.overrun = none → s.outside.rstN = true →
    s.mx.mstate ≠ .none →
    let inside := 0 ≤ row ∧ row < s.side ∧ 0 ≤ col ∧ col < s.side
    (inside → ∃ t, isDarkAt row col s = (t, .ok (decide (cell s row.toNat col.toNat = .dark))) ∧ t.mx = s.mx ∧
      ¬ t.Halted) ∧
    (¬ inside → ∃ t e, isDarkAt row col s = (t, .error e) ∧ e.number = 4)
end

