-- ==== Sys2Proof/Laws/Fields.lean ====
section
/-! SUPPORT. The fields of an encoded word: what the decoder's field readers give on the words of formats R, I and
B (30_encoding.md). -/

namespace Sys2Proof

variable {op rd ra rb imm n : Nat}

/-! ### Formats Z and R -/

theorem opField_wordR (ho : op < 256) (hd : rd < 16) (ha : ra < 16) (hb : rb < 16) :
    opField (wordR op rd ra rb) = op := by
  simp only [opField, bits, wordR, BitVec.toNat_ofNat]; omega

theorem rdField_wordR (hd : rd < 16) (ha : ra < 16) (hb : rb < 16) :
    rdField (wordR op rd ra rb) = rd := by
  simp only [rdField, bits, wordR, BitVec.toNat_ofNat]; omega

theorem raField_wordR (ha : ra < 16) (hb : rb < 16) :
    raField (wordR op rd ra rb) = ra := by
  simp only [raField, bits, wordR, BitVec.toNat_ofNat]; omega

theorem rbField_wordR (hb : rb < 16) :
    rbField (wordR op rd ra rb) = rb := by
  simp only [rbField, bits, wordR, BitVec.toNat_ofNat]; omega

theorem lowField_wordR  :
    lowField (wordR op rd ra rb) = 0 := by
  simp only [lowField, bits, wordR, BitVec.toNat_ofNat]; omega

theorem restField_wordZ  :
    restField (wordR op 0 0 0) = 0 := by
  simp only [restField, bits, wordR, BitVec.toNat_ofNat]; omega

/-! ### Format I -/

theorem opField_wordI (ho : op < 256) (hd : rd < 16) (ha : ra < 16) (hi : imm < 65536) :
    opField (wordI op rd ra imm) = op := by
  simp only [opField, bits, wordI, BitVec.toNat_ofNat]; omega

theorem rdField_wordI (hd : rd < 16) (ha : ra < 16) (hi : imm < 65536) :
    rdField (wordI op rd ra imm) = rd := by
  simp only [rdField, bits, wordI, BitVec.toNat_ofNat]; omega

theorem raField_wordI (ha : ra < 16) (hi : imm < 65536) :
    raField (wordI op rd ra imm) = ra := by
  simp only [raField, bits, wordI, BitVec.toNat_ofNat]; omega

theorem immField_wordI (hi : imm < 65536) :
    immField (wordI op rd ra imm) = imm := by
  simp only [immField, bits, wordI, BitVec.toNat_ofNat]; omega

/-! ### Format B -/

theorem opField_wordB (ho : op < 256) (hn : n < 32) (hi : imm < 65536) :
    opField (wordB op n imm) = op := by
  simp only [opField, bits, wordB, BitVec.toNat_ofNat]; omega

theorem countField_wordB (hn : n < 32) (hi : imm < 65536) :
    countField (wordB op n imm) = n := by
  simp only [countField, bits, wordB, BitVec.toNat_ofNat]; omega

theorem gapField_wordB (hi : imm < 65536) :
    gapField (wordB op n imm) = 0 := by
  simp only [gapField, bits, wordB, BitVec.toNat_ofNat]; omega

theorem immField_wordB (hi : imm < 65536) :
    immField (wordB op n imm) = imm := by
  simp only [immField, bits, wordB, BitVec.toNat_ofNat]; omega

/-! ### Register numbers -/

/-- A register number survives its field. -/
@[simp] theorem reg_val (r : Reg) : reg r.val = r := by simp [reg]

/-- A polynomial register number survives its field. -/
@[simp] theorem preg_val (p : PReg) : preg p.val = p := by simp [preg]

/-- A polynomial register number passes its check. -/
@[simp] theorem polyOk_val (p : PReg) : polyOk p.val = true := by simp [polyOk, p.isLt]

theorem preg_lt (p : PReg) : p.val < 16 := by omega

theorem bool_lt (t : Bool) : t.toNat < 65536 := by cases t <;> decide

/-- The immediate of TBL_Q fits its field. -/
theorem tblImm_lt (sel k : Byte) : k.toNat * 2 ^ 8 + sel.toNat < 65536 := by
  have := sel.isLt
  have := k.isLt
  omega

theorem byte_lt (b : Byte) : b.toNat < 65536 := by
  have := b.isLt
  omega

/-- Every command's opcode is one byte. -/
theorem Instr.opcode_lt (i : Instr) : i.opcode < 256 := by cases i <;> simp [Instr.opcode]

end Sys2Proof
end

