-- ==== Sys2Proof/Laws/State.lean ====
section
/-! SUPPORT. One lemma per field per update of the state, each true by unfolding the update, so that later proofs
rewrite with them and unfold no record update. -/

namespace Sys2Proof.Machine

/-! ### `State.setReg` -/

@[simp] theorem State.setReg_inst (s : State) (i : Reg) (v : Word) : (s.setReg i v).inst = s.inst := rfl
@[simp] theorem State.setReg_regs (s : State) (i : Reg) (v : Word) :
    (s.setReg i v).regs =
      s.regs.set i.val v i.isLt := rfl
@[simp] theorem State.setReg_polys (s : State) (i : Reg) (v : Word) : (s.setReg i v).polys = s.polys := rfl
@[simp] theorem State.setReg_conf (s : State) (i : Reg) (v : Word) : (s.setReg i v).conf = s.conf := rfl
@[simp] theorem State.setReg_bb (s : State) (i : Reg) (v : Word) : (s.setReg i v).bb = s.bb := rfl
@[simp] theorem State.setReg_cw (s : State) (i : Reg) (v : Word) : (s.setReg i v).cw = s.cw := rfl
@[simp] theorem State.setReg_mx (s : State) (i : Reg) (v : Word) : (s.setReg i v).mx = s.mx := rfl
@[simp] theorem State.setReg_score (s : State) (i : Reg) (v : Word) : (s.setReg i v).score = s.score := rfl
@[simp] theorem State.setReg_sel (s : State) (i : Reg) (v : Word) : (s.setReg i v).sel = s.sel := rfl
@[simp] theorem State.setReg_error (s : State) (i : Reg) (v : Word) : (s.setReg i v).error = s.error := rfl
@[simp] theorem State.setReg_cmdCnt (s : State) (i : Reg) (v : Word) : (s.setReg i v).cmdCnt = s.cmdCnt := rfl
@[simp] theorem State.setReg_busy (s : State) (i : Reg) (v : Word) : (s.setReg i v).busy = s.busy := rfl
@[simp] theorem State.setReg_cmd (s : State) (i : Reg) (v : Word) : (s.setReg i v).cmd = s.cmd := rfl
@[simp] theorem State.setReg_overrun (s : State) (i : Reg) (v : Word) : (s.setReg i v).overrun = s.overrun := rfl
@[simp] theorem State.setReg_outside (s : State) (i : Reg) (v : Word) : (s.setReg i v).outside = s.outside := rfl

/-! ### `State.setPoly` -/

@[simp] theorem State.setPoly_inst (s : State) (i : PReg) (q : List Byte) : (s.setPoly i q).inst = s.inst := rfl
@[simp] theorem State.setPoly_regs (s : State) (i : PReg) (q : List Byte) : (s.setPoly i q).regs = s.regs := rfl
@[simp] theorem State.setPoly_polys (s : State) (i : PReg) (q : List Byte) :
    (s.setPoly i q).polys =
      s.polys.set i.val q i.isLt := rfl
@[simp] theorem State.setPoly_conf (s : State) (i : PReg) (q : List Byte) : (s.setPoly i q).conf = s.conf := rfl
@[simp] theorem State.setPoly_bb (s : State) (i : PReg) (q : List Byte) : (s.setPoly i q).bb = s.bb := rfl
@[simp] theorem State.setPoly_cw (s : State) (i : PReg) (q : List Byte) : (s.setPoly i q).cw = s.cw := rfl
@[simp] theorem State.setPoly_mx (s : State) (i : PReg) (q : List Byte) : (s.setPoly i q).mx = s.mx := rfl
@[simp] theorem State.setPoly_score (s : State) (i : PReg) (q : List Byte) : (s.setPoly i q).score = s.score := rfl
@[simp] theorem State.setPoly_sel (s : State) (i : PReg) (q : List Byte) : (s.setPoly i q).sel = s.sel := rfl
@[simp] theorem State.setPoly_error (s : State) (i : PReg) (q : List Byte) : (s.setPoly i q).error = s.error := rfl
@[simp] theorem State.setPoly_cmdCnt (s : State) (i : PReg) (q : List Byte) : (s.setPoly i q).cmdCnt = s.cmdCnt := rfl
@[simp] theorem State.setPoly_busy (s : State) (i : PReg) (q : List Byte) : (s.setPoly i q).busy = s.busy := rfl
@[simp] theorem State.setPoly_cmd (s : State) (i : PReg) (q : List Byte) : (s.setPoly i q).cmd = s.cmd := rfl
@[simp] theorem State.setPoly_overrun (s : State) (i : PReg) (q : List Byte) :
    (s.setPoly i q).overrun =
      s.overrun := rfl
@[simp] theorem State.setPoly_outside (s : State) (i : PReg) (q : List Byte) :
    (s.setPoly i q).outside =
      s.outside := rfl

/-! ### `State.complete` -/

@[simp] theorem State.complete_inst (s : State) : (s.complete).inst = s.inst := rfl
@[simp] theorem State.complete_regs (s : State) : (s.complete).regs = s.regs := rfl
@[simp] theorem State.complete_polys (s : State) : (s.complete).polys = s.polys := rfl
@[simp] theorem State.complete_conf (s : State) : (s.complete).conf = s.conf := rfl
@[simp] theorem State.complete_bb (s : State) : (s.complete).bb = s.bb := rfl
@[simp] theorem State.complete_cw (s : State) : (s.complete).cw = s.cw := rfl
@[simp] theorem State.complete_mx (s : State) : (s.complete).mx = s.mx := rfl
@[simp] theorem State.complete_score (s : State) : (s.complete).score = s.score := rfl
@[simp] theorem State.complete_sel (s : State) : (s.complete).sel = s.sel := rfl
@[simp] theorem State.complete_error (s : State) : (s.complete).error = s.error := rfl
@[simp] theorem State.complete_cmdCnt (s : State) : (s.complete).cmdCnt = s.cmdCnt + 1 := rfl
@[simp] theorem State.complete_busy (s : State) : (s.complete).busy = false := rfl
@[simp] theorem State.complete_cmd (s : State) : (s.complete).cmd = s.cmd := rfl
@[simp] theorem State.complete_overrun (s : State) : (s.complete).overrun = s.overrun := rfl
@[simp] theorem State.complete_outside (s : State) : (s.complete).outside = s.outside := rfl

/-! ### `State.raised` -/

@[simp] theorem State.raised_inst (s : State) (e : CmdError) : (s.raised e).inst = s.inst := rfl
@[simp] theorem State.raised_regs (s : State) (e : CmdError) : (s.raised e).regs = s.regs := rfl
@[simp] theorem State.raised_polys (s : State) (e : CmdError) : (s.raised e).polys = s.polys := rfl
@[simp] theorem State.raised_conf (s : State) (e : CmdError) : (s.raised e).conf = s.conf := rfl
@[simp] theorem State.raised_bb (s : State) (e : CmdError) : (s.raised e).bb = s.bb := rfl
@[simp] theorem State.raised_cw (s : State) (e : CmdError) : (s.raised e).cw = s.cw := rfl
@[simp] theorem State.raised_mx (s : State) (e : CmdError) : (s.raised e).mx = s.mx := rfl
@[simp] theorem State.raised_score (s : State) (e : CmdError) : (s.raised e).score = s.score := rfl
@[simp] theorem State.raised_sel (s : State) (e : CmdError) : (s.raised e).sel = s.sel := rfl
@[simp] theorem State.raised_error (s : State) (e : CmdError) :
    (s.raised e).error =
      { err := true, code := e.code, cmd := s.cmd, info := e.info, cnt := s.cmdCnt } := rfl
@[simp] theorem State.raised_cmdCnt (s : State) (e : CmdError) : (s.raised e).cmdCnt = s.cmdCnt := rfl
@[simp] theorem State.raised_busy (s : State) (e : CmdError) : (s.raised e).busy = false := rfl
@[simp] theorem State.raised_cmd (s : State) (e : CmdError) : (s.raised e).cmd = s.cmd := rfl
@[simp] theorem State.raised_overrun (s : State) (e : CmdError) : (s.raised e).overrun = s.overrun := rfl
@[simp] theorem State.raised_outside (s : State) (e : CmdError) : (s.raised e).outside = s.outside := rfl

/-! ### `State.invalidateStream` -/

@[simp] theorem State.invalidateStream_inst (s : State) : (s.invalidateStream).inst = s.inst := rfl
@[simp] theorem State.invalidateStream_regs (s : State) : (s.invalidateStream).regs = s.regs := rfl
@[simp] theorem State.invalidateStream_polys (s : State) : (s.invalidateStream).polys = s.polys := rfl
@[simp] theorem State.invalidateStream_conf (s : State) : (s.invalidateStream).conf = s.conf := rfl
@[simp] theorem State.invalidateStream_bb (s : State) : (s.invalidateStream).bb = s.bb := rfl
@[simp] theorem State.invalidateStream_cw (s : State) : (s.invalidateStream).cw = { s.cw with ready := false } := rfl
@[simp] theorem State.invalidateStream_mx (s : State) : (s.invalidateStream).mx = s.mx := rfl
@[simp] theorem State.invalidateStream_score (s : State) : (s.invalidateStream).score = s.score := rfl
@[simp] theorem State.invalidateStream_sel (s : State) : (s.invalidateStream).sel = s.sel := rfl
@[simp] theorem State.invalidateStream_error (s : State) : (s.invalidateStream).error = s.error := rfl
@[simp] theorem State.invalidateStream_cmdCnt (s : State) : (s.invalidateStream).cmdCnt = s.cmdCnt := rfl
@[simp] theorem State.invalidateStream_busy (s : State) : (s.invalidateStream).busy = s.busy := rfl
@[simp] theorem State.invalidateStream_cmd (s : State) : (s.invalidateStream).cmd = s.cmd := rfl
@[simp] theorem State.invalidateStream_overrun (s : State) : (s.invalidateStream).overrun = s.overrun := rfl
@[simp] theorem State.invalidateStream_outside (s : State) : (s.invalidateStream).outside = s.outside := rfl

/-! ### `State.dropMatrix` -/

@[simp] theorem State.dropMatrix_inst (s : State) : (s.dropMatrix).inst = s.inst := rfl
@[simp] theorem State.dropMatrix_regs (s : State) : (s.dropMatrix).regs = s.regs := rfl
@[simp] theorem State.dropMatrix_polys (s : State) : (s.dropMatrix).polys = s.polys := rfl
@[simp] theorem State.dropMatrix_conf (s : State) : (s.dropMatrix).conf = s.conf := rfl
@[simp] theorem State.dropMatrix_bb (s : State) : (s.dropMatrix).bb = s.bb := rfl
@[simp] theorem State.dropMatrix_cw (s : State) : (s.dropMatrix).cw = s.cw := rfl
@[simp] theorem State.dropMatrix_mx (s : State) : (s.dropMatrix).mx = { s.mx with mstate := .none, side := 0 } := rfl
@[simp] theorem State.dropMatrix_score (s : State) : (s.dropMatrix).score = s.score := rfl
@[simp] theorem State.dropMatrix_sel (s : State) : (s.dropMatrix).sel = s.sel := rfl
@[simp] theorem State.dropMatrix_error (s : State) : (s.dropMatrix).error = s.error := rfl
@[simp] theorem State.dropMatrix_cmdCnt (s : State) : (s.dropMatrix).cmdCnt = s.cmdCnt := rfl
@[simp] theorem State.dropMatrix_busy (s : State) : (s.dropMatrix).busy = s.busy := rfl
@[simp] theorem State.dropMatrix_cmd (s : State) : (s.dropMatrix).cmd = s.cmd := rfl
@[simp] theorem State.dropMatrix_overrun (s : State) : (s.dropMatrix).overrun = s.overrun := rfl
@[simp] theorem State.dropMatrix_outside (s : State) : (s.dropMatrix).outside = s.outside := rfl

/-! ### `State.setBuffer` -/

@[simp] theorem State.setBuffer_inst (s : State) (b : List Bool) : (s.setBuffer b).inst = s.inst := rfl
@[simp] theorem State.setBuffer_regs (s : State) (b : List Bool) : (s.setBuffer b).regs = s.regs := rfl
@[simp] theorem State.setBuffer_polys (s : State) (b : List Bool) : (s.setBuffer b).polys = s.polys := rfl
@[simp] theorem State.setBuffer_conf (s : State) (b : List Bool) : (s.setBuffer b).conf = s.conf := rfl
@[simp] theorem State.setBuffer_bb (s : State) (b : List Bool) : (s.setBuffer b).bb = b := rfl
@[simp] theorem State.setBuffer_cw (s : State) (b : List Bool) :
    (s.setBuffer b).cw =
      { s.cw with ready := false } := rfl
@[simp] theorem State.setBuffer_mx (s : State) (b : List Bool) : (s.setBuffer b).mx = s.mx := rfl
@[simp] theorem State.setBuffer_score (s : State) (b : List Bool) : (s.setBuffer b).score = s.score := rfl
@[simp] theorem State.setBuffer_sel (s : State) (b : List Bool) : (s.setBuffer b).sel = s.sel := rfl
@[simp] theorem State.setBuffer_error (s : State) (b : List Bool) : (s.setBuffer b).error = s.error := rfl
@[simp] theorem State.setBuffer_cmdCnt (s : State) (b : List Bool) : (s.setBuffer b).cmdCnt = s.cmdCnt := rfl
@[simp] theorem State.setBuffer_busy (s : State) (b : List Bool) : (s.setBuffer b).busy = s.busy := rfl
@[simp] theorem State.setBuffer_cmd (s : State) (b : List Bool) : (s.setBuffer b).cmd = s.cmd := rfl
@[simp] theorem State.setBuffer_overrun (s : State) (b : List Bool) : (s.setBuffer b).overrun = s.overrun := rfl
@[simp] theorem State.setBuffer_outside (s : State) (b : List Bool) : (s.setBuffer b).outside = s.outside := rfl

/-! ### `State.setStream` -/

@[simp] theorem State.setStream_inst (s : State) (S : List Byte) : (s.setStream S).inst = s.inst := rfl
@[simp] theorem State.setStream_regs (s : State) (S : List Byte) : (s.setStream S).regs = s.regs := rfl
@[simp] theorem State.setStream_polys (s : State) (S : List Byte) : (s.setStream S).polys = s.polys := rfl
@[simp] theorem State.setStream_conf (s : State) (S : List Byte) : (s.setStream S).conf = s.conf := rfl
@[simp] theorem State.setStream_bb (s : State) (S : List Byte) : (s.setStream S).bb = s.bb := rfl
@[simp] theorem State.setStream_cw (s : State) (S : List Byte) :
    (s.setStream S).cw =
      { cells := Memory.writeRun cwmUnwritten s.cw.cells 0 S, len := BitVec.ofNat 12 S.length, ready := true } := rfl
@[simp] theorem State.setStream_mx (s : State) (S : List Byte) : (s.setStream S).mx = s.mx := rfl
@[simp] theorem State.setStream_score (s : State) (S : List Byte) : (s.setStream S).score = s.score := rfl
@[simp] theorem State.setStream_sel (s : State) (S : List Byte) : (s.setStream S).sel = s.sel := rfl
@[simp] theorem State.setStream_error (s : State) (S : List Byte) : (s.setStream S).error = s.error := rfl
@[simp] theorem State.setStream_cmdCnt (s : State) (S : List Byte) : (s.setStream S).cmdCnt = s.cmdCnt := rfl
@[simp] theorem State.setStream_busy (s : State) (S : List Byte) : (s.setStream S).busy = s.busy := rfl
@[simp] theorem State.setStream_cmd (s : State) (S : List Byte) : (s.setStream S).cmd = s.cmd := rfl
@[simp] theorem State.setStream_overrun (s : State) (S : List Byte) : (s.setStream S).overrun = s.overrun := rfl
@[simp] theorem State.setStream_outside (s : State) (S : List Byte) : (s.setStream S).outside = s.outside := rfl

/-! ### `State.setGrid` -/

@[simp] theorem State.setGrid_inst (s : State) (g : Grid) (m : MState) : (s.setGrid g m).inst = s.inst := rfl
@[simp] theorem State.setGrid_regs (s : State) (g : Grid) (m : MState) : (s.setGrid g m).regs = s.regs := rfl
@[simp] theorem State.setGrid_polys (s : State) (g : Grid) (m : MState) : (s.setGrid g m).polys = s.polys := rfl
@[simp] theorem State.setGrid_conf (s : State) (g : Grid) (m : MState) : (s.setGrid g m).conf = s.conf := rfl
@[simp] theorem State.setGrid_bb (s : State) (g : Grid) (m : MState) : (s.setGrid g m).bb = s.bb := rfl
@[simp] theorem State.setGrid_cw (s : State) (g : Grid) (m : MState) : (s.setGrid g m).cw = s.cw := rfl
@[simp] theorem State.setGrid_mx (s : State) (g : Grid) (m : MState) :
    (s.setGrid g m).mx =
      { s.mx with cells := g, mstate := m } := rfl
@[simp] theorem State.setGrid_score (s : State) (g : Grid) (m : MState) : (s.setGrid g m).score = s.score := rfl
@[simp] theorem State.setGrid_sel (s : State) (g : Grid) (m : MState) : (s.setGrid g m).sel = s.sel := rfl
@[simp] theorem State.setGrid_error (s : State) (g : Grid) (m : MState) : (s.setGrid g m).error = s.error := rfl
@[simp] theorem State.setGrid_cmdCnt (s : State) (g : Grid) (m : MState) : (s.setGrid g m).cmdCnt = s.cmdCnt := rfl
@[simp] theorem State.setGrid_busy (s : State) (g : Grid) (m : MState) : (s.setGrid g m).busy = s.busy := rfl
@[simp] theorem State.setGrid_cmd (s : State) (g : Grid) (m : MState) : (s.setGrid g m).cmd = s.cmd := rfl
@[simp] theorem State.setGrid_overrun (s : State) (g : Grid) (m : MState) : (s.setGrid g m).overrun = s.overrun := rfl
@[simp] theorem State.setGrid_outside (s : State) (g : Grid) (m : MState) : (s.setGrid g m).outside = s.outside := rfl

/-! ### `State.markTest` -/

@[simp] theorem State.markTest_inst (s : State) (t : Bool) : (s.markTest t).inst = s.inst := rfl
@[simp] theorem State.markTest_regs (s : State) (t : Bool) : (s.markTest t).regs = s.regs := rfl
@[simp] theorem State.markTest_polys (s : State) (t : Bool) : (s.markTest t).polys = s.polys := rfl
@[simp] theorem State.markTest_conf (s : State) (t : Bool) : (s.markTest t).conf = s.conf := rfl
@[simp] theorem State.markTest_bb (s : State) (t : Bool) : (s.markTest t).bb = s.bb := rfl
@[simp] theorem State.markTest_cw (s : State) (t : Bool) : (s.markTest t).cw = s.cw := rfl
@[simp] theorem State.markTest_mx (s : State) (t : Bool) :
    (s.markTest t).mx =
      { s.mx with mtest := s.mx.mtest || t } := rfl
@[simp] theorem State.markTest_score (s : State) (t : Bool) : (s.markTest t).score = s.score := rfl
@[simp] theorem State.markTest_sel (s : State) (t : Bool) : (s.markTest t).sel = s.sel := rfl
@[simp] theorem State.markTest_error (s : State) (t : Bool) : (s.markTest t).error = s.error := rfl
@[simp] theorem State.markTest_cmdCnt (s : State) (t : Bool) : (s.markTest t).cmdCnt = s.cmdCnt := rfl
@[simp] theorem State.markTest_busy (s : State) (t : Bool) : (s.markTest t).busy = s.busy := rfl
@[simp] theorem State.markTest_cmd (s : State) (t : Bool) : (s.markTest t).cmd = s.cmd := rfl
@[simp] theorem State.markTest_overrun (s : State) (t : Bool) : (s.markTest t).overrun = s.overrun := rfl
@[simp] theorem State.markTest_outside (s : State) (t : Bool) : (s.markTest t).outside = s.outside := rfl

/-! ### `State.popTurn` -/

@[simp] theorem State.popTurn_inst (s : State) : (s.popTurn).inst = s.inst := rfl
@[simp] theorem State.popTurn_regs (s : State) : (s.popTurn).regs = s.regs := rfl
@[simp] theorem State.popTurn_polys (s : State) : (s.popTurn).polys = s.polys := rfl
@[simp] theorem State.popTurn_conf (s : State) : (s.popTurn).conf = s.conf := rfl
@[simp] theorem State.popTurn_bb (s : State) : (s.popTurn).bb = s.bb := rfl
@[simp] theorem State.popTurn_cw (s : State) : (s.popTurn).cw = s.cw := rfl
@[simp] theorem State.popTurn_mx (s : State) : (s.popTurn).mx = s.mx := rfl
@[simp] theorem State.popTurn_score (s : State) : (s.popTurn).score = s.score := rfl
@[simp] theorem State.popTurn_sel (s : State) : (s.popTurn).sel = s.sel := rfl
@[simp] theorem State.popTurn_error (s : State) : (s.popTurn).error = s.error := rfl
@[simp] theorem State.popTurn_cmdCnt (s : State) : (s.popTurn).cmdCnt = s.cmdCnt := rfl
@[simp] theorem State.popTurn_busy (s : State) : (s.popTurn).busy = s.busy := rfl
@[simp] theorem State.popTurn_cmd (s : State) : (s.popTurn).cmd = s.cmd := rfl
@[simp] theorem State.popTurn_overrun (s : State) : (s.popTurn).overrun = s.overrun := rfl
@[simp] theorem State.popTurn_outside (s : State) :
    (s.popTurn).outside =
      { s.outside with turns := s.outside.turns.tail } := rfl

/-! ### `State.fetching` -/

@[simp] theorem State.fetching_inst (s : State) (w : Word) : (s.fetching w).inst = s.inst := rfl
@[simp] theorem State.fetching_regs (s : State) (w : Word) : (s.fetching w).regs = s.regs := rfl
@[simp] theorem State.fetching_polys (s : State) (w : Word) : (s.fetching w).polys = s.polys := rfl
@[simp] theorem State.fetching_conf (s : State) (w : Word) : (s.fetching w).conf = s.conf := rfl
@[simp] theorem State.fetching_bb (s : State) (w : Word) : (s.fetching w).bb = s.bb := rfl
@[simp] theorem State.fetching_cw (s : State) (w : Word) : (s.fetching w).cw = s.cw := rfl
@[simp] theorem State.fetching_mx (s : State) (w : Word) : (s.fetching w).mx = s.mx := rfl
@[simp] theorem State.fetching_score (s : State) (w : Word) : (s.fetching w).score = s.score := rfl
@[simp] theorem State.fetching_sel (s : State) (w : Word) : (s.fetching w).sel = s.sel := rfl
@[simp] theorem State.fetching_error (s : State) (w : Word) : (s.fetching w).error = s.error := rfl
@[simp] theorem State.fetching_cmdCnt (s : State) (w : Word) : (s.fetching w).cmdCnt = s.cmdCnt := rfl
@[simp] theorem State.fetching_busy (s : State) (w : Word) : (s.fetching w).busy = true := rfl
@[simp] theorem State.fetching_cmd (s : State) (w : Word) : (s.fetching w).cmd = w := rfl
@[simp] theorem State.fetching_overrun (s : State) (w : Word) : (s.fetching w).overrun = s.overrun := rfl
@[simp] theorem State.fetching_outside (s : State) (w : Word) :
    (s.fetching w).outside =
      { s.outside with turns := [] } := rfl

/-! ### `State.busRead` -/

@[simp] theorem State.busRead_inst (s : State) (a : Nat) : (s.busRead a).inst = s.inst := by
  unfold State.busRead; split <;> rfl
@[simp] theorem State.busRead_regs (s : State) (a : Nat) : (s.busRead a).regs = s.regs := by
  unfold State.busRead; split <;> rfl
@[simp] theorem State.busRead_polys (s : State) (a : Nat) : (s.busRead a).polys = s.polys := by
  unfold State.busRead; split <;> rfl
@[simp] theorem State.busRead_conf (s : State) (a : Nat) : (s.busRead a).conf = s.conf := by
  unfold State.busRead; split <;> rfl
@[simp] theorem State.busRead_bb (s : State) (a : Nat) : (s.busRead a).bb = s.bb := by
  unfold State.busRead; split <;> rfl
@[simp] theorem State.busRead_cw (s : State) (a : Nat) : (s.busRead a).cw = s.cw := by
  unfold State.busRead; split <;> rfl
@[simp] theorem State.busRead_mx (s : State) (a : Nat) : (s.busRead a).mx = s.mx := by
  unfold State.busRead; split <;> rfl
@[simp] theorem State.busRead_score (s : State) (a : Nat) : (s.busRead a).score = s.score := by
  unfold State.busRead; split <;> rfl
@[simp] theorem State.busRead_sel (s : State) (a : Nat) : (s.busRead a).sel = s.sel := by
  unfold State.busRead; split <;> rfl
@[simp] theorem State.busRead_error (s : State) (a : Nat) : (s.busRead a).error = s.error := by
  unfold State.busRead; split <;> rfl
@[simp] theorem State.busRead_cmdCnt (s : State) (a : Nat) : (s.busRead a).cmdCnt = s.cmdCnt := by
  unfold State.busRead; split <;> rfl
@[simp] theorem State.busRead_busy (s : State) (a : Nat) : (s.busRead a).busy = s.busy := by
  unfold State.busRead; split <;> rfl
@[simp] theorem State.busRead_cmd (s : State) (a : Nat) : (s.busRead a).cmd = s.cmd := by
  unfold State.busRead; split <;> rfl
@[simp] theorem State.busRead_overrun (s : State) (a : Nat) : (s.busRead a).overrun = s.overrun := by
  unfold State.busRead; split <;> rfl

/-! ### Derived readings -/

@[simp] theorem State.reg_setReg_self (s : State) (i : Reg) (v : Word) : (s.setReg i v).reg i = v := by
  simp [State.reg, State.setReg]

theorem State.reg_setReg_other (s : State) (i k : Reg) (v : Word) (h : k ≠ i) : (s.setReg i v).reg k = s.reg k := by
  simp [State.reg, State.setReg, Fin.val_ne_of_ne (Ne.symm h)]

@[simp] theorem State.poly_setPoly_self (s : State) (i : PReg) (q : List Byte) : (s.setPoly i q).poly i = q := by
  simp [State.poly, State.setPoly]

theorem State.poly_setPoly_other (s : State) (i k : PReg) (q : List Byte) (h : k ≠ i) :
    (s.setPoly i q).poly k = s.poly k := by
  simp [State.poly, State.setPoly, Fin.val_ne_of_ne (Ne.symm h)]

/-- A reading of the register file depends on the field `regs` alone. -/
theorem State.reg_congr (s t : State) (h : t.regs = s.regs) (i : Reg) : t.reg i = s.reg i := by
  simp [State.reg, h]

/-- A reading of the polynomial registers depends on the field `polys` alone. -/
theorem State.poly_congr (s t : State) (h : t.polys = s.polys) (i : PReg) : t.poly i = s.poly i := by
  simp [State.poly, h]

/-- A reading of CWM depends on the field `cw` alone. -/
theorem State.cwm_congr (s t : State) (h : t.cw.cells = s.cw.cells) (k : Nat) : t.cwm k = s.cwm k := by
  simp [State.cwm, h]

@[simp] theorem State.busRead_turns (s : State) (a : Nat) : (s.busRead a).outside.turns = s.outside.turns := by
  unfold State.busRead; split <;> rfl

end Sys2Proof.Machine
end

