-- ==== Sys2Proof/Laws/Ops.lean ====
section
/-! SUPPORT. One lemma for each shared operation that says once everything it can do; later proofs cite these and
unfold no operation. -/

namespace Sys2Proof.Machine

/-! ### Checks -/

@[simp] theorem raiseIf_pos {α : Type} {bad : Prop} [Decidable bad] (h : bad) (e : CmdError)
    (k : Except CmdError α) : raiseIf bad e k = .error e := by simp [raiseIf, h]

@[simp] theorem raiseIf_neg {α : Type} {bad : Prop} [Decidable bad] (h : ¬ bad) (e : CmdError)
    (k : Except CmdError α) : raiseIf bad e k = k := by simp [raiseIf, h]

/-- A checked computation succeeds when the check passes and the rest succeeds. -/
theorem raiseIf_ok {α : Type} {bad : Prop} [Decidable bad] {e : CmdError} {k : Except CmdError α} {a : α} :
    raiseIf bad e k = .ok a ↔ ¬ bad ∧ k = .ok a := by
  by_cases h : bad <;> simp [raiseIf, h]

/-- A checked computation raises the check's error, or the check passes and the rest raises. -/
theorem raiseIf_error {α : Type} {bad : Prop} [Decidable bad] {e x : CmdError} {k : Except CmdError α} :
    raiseIf bad e k = .error x ↔ (bad ∧ x = e) ∨ (¬ bad ∧ k = .error x) := by
  by_cases h : bad <;> simp [raiseIf, h, eq_comm]

theorem State.needVer_ok {α : Type} {s : State} {k : Except CmdError α} {a : α} :
    s.needVer k = .ok a ↔ s.conf.ver ≠ 0 ∧ k = .ok a := raiseIf_ok

theorem State.needMState_ok {α : Type} {s : State} {ok : Prop} [Decidable ok] {k : Except CmdError α} {a : α} :
    s.needMState ok k = .ok a ↔ ok ∧ k = .ok a := by
  rw [State.needMState, raiseIf_ok, Classical.not_not]

theorem State.needStream_ok {α : Type} {s : State} {k : Except CmdError α} {a : α} :
    s.needStream k = .ok a ↔ s.cw.ready = true ∧ k = .ok a := by
  rw [State.needStream, raiseIf_ok, Bool.not_eq_false]

/-! ### Ending a command -/

@[simp] theorem State.finish_ok (s s' : State) : s.finish (.ok s') = .next s'.complete := rfl

@[simp] theorem State.finish_error (s : State) (e : CmdError) : s.finish (.error e) = .next (s.raised e) := rfl

/-- A command ends in a next state, in one of two ways: it completes with its effect, or it raises. -/
theorem State.finish_cases (s : State) (r : Effect) :
    (∃ s', r = .ok s' ∧ s.finish r = .next s'.complete) ∨
      (∃ e, r = .error e ∧ s.finish r = .next (s.raised e)) := by
  cases r with
  | ok s' => exact .inl ⟨s', rfl, rfl⟩
  | error e => exact .inr ⟨e, rfl, rfl⟩

/-- A step's outcome is injective in the next state. -/
theorem next_inj {s t : State} (h : (Host.Outcome.next s : Outcome) = .next t) : s = t := by cases h; rfl

/-- The deferred CMD_OVERRUN (R337): nothing without a refused word; the word is dropped after an error of the
command's own, and recorded otherwise. -/
theorem State.settleOverrun_cases (s : State) :
    (s.overrun = none ∧ s.settleOverrun = s) ∨
      (∃ w, s.overrun = some w ∧ s.error.err = true ∧ s.settleOverrun = { s with overrun := none }) ∨
      (∃ w, s.overrun = some w ∧ s.error.err = false ∧
        s.settleOverrun =
          { s with
            error := { err := true, code := .cmdOverrun, cmd := w, info := 0, cnt := s.cmdCnt }
            overrun := none }) := by
  unfold State.settleOverrun
  cases h : s.overrun with
  | none => exact .inl ⟨rfl, rfl⟩
  | some w =>
    cases he : s.error.err with
    | true => exact .inr (.inl ⟨w, rfl, rfl, by simp⟩)
    | false => exact .inr (.inr ⟨w, rfl, rfl, by simp⟩)

/-! ### GF(256) -/

theorem glog_ok {n : Nat} (h : 1 ≤ n ∧ n ≤ 255) : glog n = .ok (logAt n) := by
  unfold glog
  rw [raiseIf_neg (by omega)]

theorem glog_error {n : Nat} (h : ¬ (1 ≤ n ∧ n ≤ 255)) : glog n = .error { code := .gfDomain, info := wordOf n } := by
  unfold glog
  rw [raiseIf_pos (by omega)]

/-- The table product: the first operand outside 1..255 is refused, a before b (R128). -/
theorem gfProduct_cases (a b : Nat) :
    (1 ≤ a ∧ a ≤ 255 ∧ 1 ≤ b ∧ b ≤ 255 ∧ gfProduct a b = .ok (gexp (logAt a + logAt b))) ∨
      (¬ (1 ≤ a ∧ a ≤ 255) ∧ gfProduct a b = .error { code := .gfDomain, info := wordOf a }) ∨
      ((1 ≤ a ∧ a ≤ 255) ∧ ¬ (1 ≤ b ∧ b ≤ 255) ∧ gfProduct a b = .error { code := .gfDomain, info := wordOf b }) := by
  unfold gfProduct
  by_cases ha : 1 ≤ a ∧ a ≤ 255
  · by_cases hb : 1 ≤ b ∧ b ≤ 255
    · refine .inl ⟨ha.1, ha.2, hb.1, hb.2, ?_⟩
      rw [glog_ok ha, glog_ok hb]
      rfl
    · refine .inr (.inr ⟨ha, hb, ?_⟩)
      rw [glog_ok ha, glog_error hb]
      rfl
  · refine .inr (.inl ⟨ha, ?_⟩)
    rw [glog_error ha]
    rfl

/-! ### Polynomials -/

theorem polyNew_ok {num : List Byte} {shift : Nat} {r : List Byte} :
    polyNew num shift = .ok r ↔
      num.length ≠ 0 ∧ (strip num ++ zeros shift).length ≤ Config.pMax ∧ r = strip num ++ zeros shift := by
  unfold polyNew
  rw [raiseIf_ok, raiseIf_ok, Nat.not_lt, Except.ok.injEq]
  constructor
  · rintro ⟨h1, h2, h3⟩; exact ⟨h1, h2, h3.symm⟩
  · rintro ⟨h1, h2, h3⟩; exact ⟨h1, h2, h3.symm⟩

theorem polyPush_ok {q r : List Byte} {c : Byte} :
    polyPush q c = .ok r ↔ q.length ≠ Config.pMax ∧ r = q ++ [c] := by
  unfold polyPush
  rw [raiseIf_ok, Except.ok.injEq, eq_comm (a := r)]

/-- What `strip` leaves: the sequence without the run of zeros it begins with (R8). -/
theorem strip_spec (q : List Byte) :
    ∃ z, q = List.replicate z 0 ++ strip q ∧ (strip q).head? ≠ some 0 := by
  induction q with
  | nil => exact ⟨0, rfl, by simp [strip]⟩
  | cons c q ih =>
    obtain ⟨z, h1, h2⟩ := ih
    by_cases hc : c = 0
    · subst hc
      refine ⟨z + 1, ?_, ?_⟩
      · rw [List.replicate_succ, List.cons_append]
        have : strip (0 :: q) = strip q := rfl
        rw [this, ← h1]
      · exact h2
    · have hc' : (c == 0) = false := by simpa using hc
      have hs : strip (c :: q) = c :: q := by simp only [strip, List.dropWhile, hc']
      refine ⟨0, by rw [hs]; rfl, ?_⟩
      rw [hs]
      simpa using hc

/-! ### The bit buffer -/

theorem bbPut_ok {bb r : List Bool} {v n : Nat} :
    bbPut bb v n = .ok r ↔ bb.length + n ≤ Config.bbMaxBits ∧ r = bb ++ putBits v n := by
  unfold bbPut
  rw [raiseIf_ok, Nat.not_lt, Except.ok.injEq, eq_comm (a := r)]

@[simp] theorem putBits_length (v n : Nat) : (putBits v n).length = n := by
  induction n with
  | zero => rfl
  | succ n ih => simp [putBits, ih]

/-- The bits of a put, most significant first (R170): the j-th is bit n - 1 - j of the value. -/
theorem putBits_eq_map (v n : Nat) : putBits v n = (List.range n).map fun j => v.testBit (n - 1 - j) := by
  induction n with
  | zero => rfl
  | succ n ih =>
    rw [putBits, ih, List.range_succ_eq_map]
    simp only [List.map_cons, List.map_map, Nat.add_sub_cancel, Nat.sub_zero, List.cons.injEq, true_and]
    apply List.map_congr_left
    intro j _
    simp only [Function.comp, Nat.succ_eq_add_one]
    rw [show n - (j + 1) = n - 1 - j by omega]

theorem bbByte_drop (bb : List Bool) (k : Nat) : bbByte (bb.drop 8) k = bbByte bb (k + 1) := by
  unfold bbByte
  congr 2
  apply List.map_congr_left
  intro i _
  simp only [List.getD_eq_getElem?_getD, List.getElem?_drop]
  rw [show 8 + (8 * k + i) = 8 * (k + 1) + i by omega]

/-- The bytes RS_ENCODE takes from the buffer are byte(0), …, byte(n - 1) (R171, R214). -/
theorem bytesOf_eq_map (n : Nat) (bb : List Bool) : bytesOf n bb = (List.range n).map (bbByte bb) := by
  induction n generalizing bb with
  | zero => rfl
  | succ n ih =>
    rw [bytesOf, ih, List.range_succ_eq_map]
    simp only [List.map_cons, List.map_map]
    congr 1
    apply List.map_congr_left
    intro k _
    exact bbByte_drop bb k

theorem bbFinish_ok {c : Nat} {bb r : List Bool} :
    bbFinish c bb = .ok r ↔ bb.length ≤ c ∧ r = fillPads c (padToByte (addTerminator c bb)) := by
  unfold bbFinish
  rw [raiseIf_ok, Nat.not_lt, Except.ok.injEq, eq_comm (a := r)]

/-! ### The block table -/

theorem groupField_ok {row : List BlockGroup} {k x : Nat} {f : BlockGroup → Nat} :
    groupField row k f = .ok x ↔ k < row.length ∧ x = f (row.getD k ⟨0, 0, 0⟩) := by
  unfold groupField
  rw [raiseIf_ok, Nat.not_le, Except.ok.injEq, eq_comm (a := x)]

/-! ### The step -/

/-- An idle block keeps its state on its turn (R344). -/
theorem blockTurn_idle {s : State} (h : s.busy = false) : blockTurn s = .next s := by simp [blockTurn, h]

/-- A busy block runs the command in execution. -/
theorem blockTurn_busy {s : State} (h : s.busy = true) : blockTurn s = runCommand s := by simp [blockTurn, h]

/-- The command in execution: its meaning, or ILLEGAL_COMMAND for a word that is none; then the refused word. -/
theorem runCommand_cases (s : State) :
    (∃ i, decode s.cmd = .ok i ∧ runCommand s = afterCommand (exec i s)) ∨
      (∃ e, decode s.cmd = .error e ∧ runCommand s = .next (s.raised illegalCommand).settleOverrun) := by
  unfold runCommand
  cases h : decode s.cmd with
  | ok i => exact .inl ⟨i, rfl, rfl⟩
  | error e => exact .inr ⟨e, rfl, rfl⟩

end Sys2Proof.Machine
end

