-- ==== Sys2Proof/Laws/Host.lean ====
section
/-! SUPPORT. The host at work on the block: every step and every turn is taken, one turn of the block leaves it idle,
and what the pieces of the host's work come to. -/

namespace Sys2Proof.Machine

/-! ### Every command and every step ends in a next state -/

/-- A command ends in a next state, and the block is then idle (R63, R333). -/
theorem State.finish_next (s : State) (r : Effect) : ∃ t, s.finish r = .next t ∧ t.busy = false := by
  rcases s.finish_cases r with ⟨s', -, h⟩ | ⟨e, -, h⟩
  · exact ⟨_, h, rfl⟩
  · exact ⟨_, h, rfl⟩

theorem exec_next (i : Instr) (s : State) : ∃ t, exec i s = .next t ∧ t.busy = false := by
  cases i <;> first | exact ⟨_, rfl, rfl⟩ | exact State.finish_next s _

theorem State.settleOverrun_busy (s : State) : s.settleOverrun.busy = s.busy := by
  rcases s.settleOverrun_cases with ⟨-, h⟩ | ⟨w, -, -, h⟩ | ⟨w, -, -, h⟩ <;> rw [h]

/-- The block's turn is taken, and leaves it idle. -/
theorem blockTurn_next (s : State) : ∃ t, blockTurn s = .next t ∧ t.busy = false := by
  cases h : s.busy with
  | false => exact ⟨s, blockTurn_idle h, h⟩
  | true =>
    rw [blockTurn_busy h]
    rcases runCommand_cases s with ⟨i, -, hi⟩ | ⟨e, -, he⟩
    · obtain ⟨t, ht, hb⟩ := exec_next i s
      exact ⟨t.settleOverrun, by rw [hi, ht]; rfl, by rw [State.settleOverrun_busy, hb]⟩
    · exact ⟨_, he, by rw [State.settleOverrun_busy]; rfl⟩

theorem step_next (s : State) : ∃ t, step s = .next t := by
  unfold step
  split
  · exact (blockTurn_next s).imp fun _ h => h.1
  · exact (blockTurn_next _).imp fun _ h => h.1
  all_goals exact ⟨_, rfl⟩

/-! ### Turns -/

/-- The host's turn is the step of the state in which that turn alone is to come. -/
theorem State.takeTurn_step (s : State) (x : Turn) :
    step { s with outside := { s.outside with turns := [x] } } = .next (s.takeTurn x) := by
  obtain ⟨t, ht⟩ := step_next { s with outside := { s.outside with turns := [x] } }
  simp only [State.takeTurn, ht]

/-- One turn of the block is enough: it leaves the block idle, so one poll of STATUS reads BUSY = 0 (R366). -/
theorem State.takeTurn_block_idle (s : State) : (s.takeTurn .block).busy = false := by
  obtain ⟨t, ht, hb⟩ := blockTurn_next ({ s with outside := { s.outside with turns := [.block] } } : State).popTurn
  have h := s.takeTurn_step .block
  have : step { s with outside := { s.outside with turns := [.block] } } = .next t := ht
  rw [← next_inj (this.symm.trans h), hb]

/-! ### The pieces of the host's work -/

theorem HostDuty.andThen_ok {α β : Type} {d : HostDuty α} {k : α → HostDuty β} {s t : State} {a : α}
    (h : d s = (t, .ok a)) : d.andThen k s = k a t := by simp only [HostDuty.andThen, h]

/-- An error ends the work: nothing after it is done (R199, R345). -/
theorem HostDuty.andThen_error {α β : Type} {d : HostDuty α} {k : α → HostDuty β} {s t : State} {e : EncodeError}
    (h : d s = (t, .error e)) : d.andThen k s = (t, .error e) := by simp only [HostDuty.andThen, h]

/-- A command that leaves no error lets the host go on. -/
theorem issue_ok {i : Instr} {s t : State} (ht : (issueTurns s.inst.blockBase i).foldl State.takeTurn s = t)
    (he : (t.outside.readData.getD 0).getLsbD 1 = false) : issue i s = (t, .ok ()) := by
  subst ht
  simp only [issue, he, Bool.false_eq_true, if_false]

/-- A segment whose mode is none of the four ends the encode before any bit of it is written (R196, R345). -/
theorem putSegments_unknown {alnum : Config.AlnumMode} {v : Nat} {ts : TaggedSegment} {rest : List TaggedSegment}
    {s : State} {e : ErrCode} (h : modeOfTag ts.tag = .error e) :
    putSegments alnum v (ts :: rest) s = (s, .error (.host e)) := by
  simp only [putSegments, segmentOf, h, Except.bind, HostDuty.stop]

end Sys2Proof.Machine
end

