-- ==== Sys2Proof/Laws/Memory.lean ====
section
/-! SUPPORT. The laws of the memories: a read after a write, a run of writes, and that every operation keeps the
canonical form. `d` is what an unlisted cell reads as. -/

namespace Sys2Proof.Machine

variable {α : Type} [DecidableEq α] {d : α}

/-! ### The canonical form -/

/-- A canonical memory from `hi` on is canonical from every smaller address on. -/
theorem Memory.wfFrom_mono {lo hi : Nat} (h : lo ≤ hi) {m : Memory α} (hm : Memory.wfFrom d hi m = true) :
    Memory.wfFrom d lo m = true := by
  cases m with
  | nil => rfl
  | cons c m =>
    obtain ⟨k, v⟩ := c
    simp only [Memory.wfFrom, Bool.and_eq_true, decide_eq_true_eq] at hm ⊢
    exact ⟨Nat.le_trans h hm.1, hm.2⟩

/-- Below its first address a canonical memory reads as unlisted. -/
theorem Memory.read_below {lo a : Nat} {m : Memory α} (hm : Memory.wfFrom d lo m = true) (h : a < lo) :
    Memory.read d m a = d := by
  cases m with
  | nil => rfl
  | cons c m =>
    obtain ⟨k, v⟩ := c
    simp only [Memory.wfFrom, Bool.and_eq_true, decide_eq_true_eq] at hm
    have h1 : a ≠ k := by omega
    have h2 : a < k := by omega
    simp [Memory.read, h1, h2]

theorem Memory.wfFrom_write {lo a : Nat} {m : Memory α} {x : α} (hm : Memory.wfFrom d lo m = true) (h : lo ≤ a) :
    Memory.wfFrom d lo (Memory.write d m a x) = true := by
  induction m generalizing lo with
  | nil =>
    unfold Memory.write
    split
    · rfl
    · simp [Memory.wfFrom, *]
  | cons c m ih =>
    obtain ⟨k, v⟩ := c
    have hm' := hm
    simp only [Memory.wfFrom, Bool.and_eq_true, decide_eq_true_eq] at hm'
    unfold Memory.write
    split
    · split
      · exact hm
      · rename_i h1 h2
        simp only [Memory.wfFrom, Bool.and_eq_true, decide_eq_true_eq]
        exact ⟨h, h2, by omega, hm'.2⟩
    · split
      · split
        · exact Memory.wfFrom_mono (by omega) hm'.2.2
        · rename_i h1 h2 h3
          subst h2
          simp only [Memory.wfFrom, Bool.and_eq_true, decide_eq_true_eq]
          exact ⟨hm'.1, h3, hm'.2.2⟩
      · simp only [Memory.wfFrom, Bool.and_eq_true, decide_eq_true_eq]
        exact ⟨hm'.1, hm'.2.1, ih hm'.2.2 (by omega)⟩

/-- A write keeps the canonical form. -/
theorem Memory.wf_write {m : Memory α} (hm : Memory.wf d m = true) (a : Nat) (x : α) :
    Memory.wf d (Memory.write d m a x) = true :=
  Memory.wfFrom_write hm (Nat.zero_le a)

/-- A run of writes keeps the canonical form. -/
theorem Memory.wf_writeRun {m : Memory α} (hm : Memory.wf d m = true) (a : Nat) (l : List α) :
    Memory.wf d (Memory.writeRun d m a l) = true := by
  induction l generalizing m a with
  | nil => exact hm
  | cons x l ih => exact ih (Memory.wf_write hm a x) (a + 1)

/-! ### Reading -/

theorem Memory.readFrom_write {lo a b : Nat} {m : Memory α} {x : α} (hm : Memory.wfFrom d lo m = true) :
    Memory.read d (Memory.write d m a x) b = if b = a then x else Memory.read d m b := by
  induction m generalizing lo with
  | nil =>
    unfold Memory.write
    split
    · split <;> simp_all [Memory.read]
    · simp only [Memory.read]
      split
      · rfl
      · simp
  | cons c m ih =>
    obtain ⟨k, v⟩ := c
    have hm' := hm
    simp only [Memory.wfFrom, Bool.and_eq_true, decide_eq_true_eq] at hm'
    obtain ⟨h1, h2, h3⟩ := hm'
    unfold Memory.write
    by_cases hak : a < k
    · simp only [hak, if_true]
      by_cases hx : x = d
      · simp only [hx, if_true]
        by_cases hb : b = a
        · subst hb
          simp [Memory.read, Nat.ne_of_lt hak, hak]
        · simp [hb]
      · simp only [hx, if_false]
        by_cases hb : b = a
        · simp [Memory.read, hb]
        · by_cases hba : b < a
          · have : b ≠ k := by omega
            have : b < k := by omega
            simp [Memory.read, *]
          · simp [Memory.read, hb, hba]
    · simp only [hak, if_false]
      by_cases hk : a = k
      · subst hk
        simp only [if_true]
        by_cases hx : x = d
        · simp only [hx, if_true]
          by_cases hb : b = a
          · subst hb
            simp [Memory.read_below h3 (Nat.lt_succ_self b)]
          · by_cases hba : b < a
            · simp [Memory.read, hb, hba, Memory.read_below h3 (by omega : b < a + 1)]
            · simp [Memory.read, hb, hba]
        · simp only [hx, if_false]
          by_cases hb : b = a
          · simp [Memory.read, hb]
          · simp [Memory.read, hb]
      · simp only [hk, if_false]
        by_cases hbk : b = k
        · have : b ≠ a := by omega
          simp [Memory.read, hbk, Ne.symm hk]
        · by_cases hb : b < k
          · have : b ≠ a := by omega
            simp [Memory.read, hbk, hb, this]
          · simp only [Memory.read, hbk, hb, if_false]
            exact ih h3

/-- What a canonical memory reads as after a write: the written value there, the old value elsewhere. -/
theorem Memory.read_write {m : Memory α} (hm : Memory.wf d m = true) (a b : Nat) (x : α) :
    Memory.read d (Memory.write d m a x) b = if b = a then x else Memory.read d m b :=
  Memory.readFrom_write hm

/-- What a canonical memory reads as after a run of writes. -/
theorem Memory.read_writeRun {m : Memory α} (hm : Memory.wf d m = true) (a b : Nat) (l : List α) :
    Memory.read d (Memory.writeRun d m a l) b =
      if a ≤ b ∧ b < a + l.length then l.getD (b - a) d else Memory.read d m b := by
  induction l generalizing m a with
  | nil => simp [Memory.writeRun]
  | cons x l ih =>
    simp only [Memory.writeRun]
    rw [ih (Memory.wf_write hm a x), Memory.read_write hm]
    by_cases h1 : b = a
    · subst h1
      simp
    · by_cases h2 : a + 1 ≤ b ∧ b < a + 1 + l.length
      · have h3 : a ≤ b ∧ b < a + (x :: l).length := by simp only [List.length_cons]; omega
        simp only [h2, h3, and_self, if_true]
        rw [show b - a = (b - (a + 1)) + 1 by omega]
        simp
      · have h3 : ¬ (a ≤ b ∧ b < a + (x :: l).length) := by simp only [List.length_cons]; omega
        rw [if_neg h2, if_neg h3, if_neg h1]

/-! ### The matrix -/

theorem gridWf_rows {g : Grid} (hg : gridWf g = true) : Memory.wf [] g = true := by
  simp only [gridWf, Bool.and_eq_true] at hg
  exact hg.1

theorem Memory.read_mem {β : Type} {e : β} {m : Memory β} {a : Nat} :
    Memory.read e m a = e ∨ (a, Memory.read e m a) ∈ m := by
  induction m with
  | nil => exact .inl rfl
  | cons c m ih =>
    obtain ⟨k, v⟩ := c
    unfold Memory.read
    split
    · rename_i h; subst h; exact .inr (by simp)
    · split
      · exact .inl rfl
      · rcases ih with h | h
        · exact .inl h
        · exact .inr (List.mem_cons_of_mem _ h)

/-- Each row of a canonical matrix is canonical. -/
theorem gridWf_row {g : Grid} (hg : gridWf g = true) (r : Nat) :
    Memory.wf MCell.unset (Memory.read [] g r) = true := by
  simp only [gridWf, Bool.and_eq_true, List.all_eq_true] at hg
  rcases Memory.read_mem (e := ([] : Memory MCell)) (m := g) (a := r) with h | h
  · rw [h]; rfl
  · exact hg.2 _ h

theorem Memory.mem_write {m : Memory α} {a : Nat} {x : α} {c : Nat × α} (h : c ∈ Memory.write d m a x) :
    c = (a, x) ∨ c ∈ m := by
  induction m with
  | nil =>
    unfold Memory.write at h
    split at h <;> simp_all
  | cons e m ih =>
    obtain ⟨k, v⟩ := e
    unfold Memory.write at h
    split at h
    · split at h
      · exact .inr h
      · simpa using h
    · split at h
      · split at h
        · exact .inr (List.mem_cons_of_mem _ h)
        · rcases List.mem_cons.mp h with h | h
          · exact .inl h
          · exact .inr (List.mem_cons_of_mem _ h)
      · rcases List.mem_cons.mp h with h | h
        · exact .inr (by simp [h])
        · rcases ih h with h | h
          · exact .inl h
          · exact .inr (List.mem_cons_of_mem _ h)

/-- A cell write keeps the canonical form of MAT. -/
theorem gridWf_set {g : Grid} (hg : gridWf g = true) (r c : Nat) (v : MCell) : gridWf (gridSet g r c v) = true := by
  have hrow := Memory.wf_write (gridWf_row hg r) c v
  have hg' := hg
  simp only [gridWf, Bool.and_eq_true, List.all_eq_true] at hg' ⊢
  refine ⟨Memory.wf_write hg'.1 r _, fun x hx => ?_⟩
  rcases Memory.mem_write hx with h | h
  · rw [h]; exact hrow
  · exact hg'.2 _ h

/-- What MAT reads as after a cell write. -/
theorem gridGet_set {g : Grid} (hg : gridWf g = true) (r c r' c' : Nat) (v : MCell) :
    gridGet (gridSet g r c v) r' c' = if r' = r ∧ c' = c then v else gridGet g r' c' := by
  unfold gridGet gridSet
  rw [Memory.read_write (gridWf_rows hg)]
  by_cases h : r' = r
  · subst h
    simp only [if_true, true_and]
    rw [Memory.read_write (gridWf_row hg r')]
  · simp [h]

/-- A guarded placement keeps the canonical form of MAT. -/
theorem gridWf_place {g : Grid} (hg : gridWf g = true) (r c : Nat) (b : Bool) : gridWf (gridPlace g r c b) = true := by
  unfold gridPlace
  split
  · exact gridWf_set hg r c _
  · exact hg

/-- What MAT reads as after a guarded placement (R256). -/
theorem gridGet_place {g : Grid} (hg : gridWf g = true) (r c r' c' : Nat) (b : Bool) :
    gridGet (gridPlace g r c b) r' c' =
      if (r' = r ∧ c' = c) ∧ gridGet g r c = .unset then .ofDark b else gridGet g r' c' := by
  unfold gridPlace
  split
  · rw [gridGet_set hg]
    simp [*]
  · simp [*]

/-- A sequence of guarded placements keeps the canonical form of MAT. -/
theorem gridWf_placeAll {g : Grid} (hg : gridWf g = true) (l : List (Nat × Nat × Bool)) :
    gridWf (gridPlaceAll g l) = true := by
  induction l generalizing g with
  | nil => exact hg
  | cons x l ih => exact ih (gridWf_place hg _ _ _)

/-- Neither DARK nor LIGHT is UNSET. -/
theorem MCell.ofDark_ne_unset (b : Bool) : MCell.ofDark b ≠ .unset := by cases b <;> decide

/-- What MAT reads as after a sequence of guarded placements: a set cell keeps its value, and an UNSET cell takes
the value of the first placement there, if there is one. -/
theorem gridGet_placeAll {g : Grid} (hg : gridWf g = true) (l : List (Nat × Nat × Bool)) (r c : Nat) :
    gridGet (gridPlaceAll g l) r c =
      if gridGet g r c = .unset then
        ((l.find? fun x => x.1 = r ∧ x.2.1 = c).map fun x => MCell.ofDark x.2.2).getD .unset
      else gridGet g r c := by
  induction l generalizing g with
  | nil => simp [gridPlaceAll]
  | cons x l ih =>
    obtain ⟨a, b, v⟩ := x
    have hstep : gridPlaceAll g ((a, b, v) :: l) = gridPlaceAll (gridPlace g a b v) l := rfl
    rw [hstep, ih (gridWf_place hg _ _ _), gridGet_place hg]
    by_cases h : a = r ∧ b = c
    · obtain ⟨rfl, rfl⟩ := h
      by_cases hu : gridGet g a b = .unset
      · simp [hu, MCell.ofDark_ne_unset]
      · simp [hu]
    · have h' : ¬ (r = a ∧ c = b) := fun e => h ⟨e.1.symm, e.2.symm⟩
      simp [h, h']

/-! ### Clearing the square -/

theorem wfFrom_filter {lo : Nat} {m : Memory α} (hm : Memory.wfFrom d lo m = true) (p : Nat × α → Bool) :
    Memory.wfFrom d lo (m.filter p) = true := by
  induction m generalizing lo with
  | nil => rfl
  | cons c m ih =>
    obtain ⟨k, v⟩ := c
    simp only [Memory.wfFrom, Bool.and_eq_true, decide_eq_true_eq] at hm
    rw [List.filter_cons]
    split
    · simp only [Memory.wfFrom, Bool.and_eq_true, decide_eq_true_eq]
      exact ⟨hm.1, hm.2.1, ih hm.2.2⟩
    · exact ih (Memory.wfFrom_mono (by omega) hm.2.2)

theorem read_rowOutside {lo n a : Nat} {m : Memory MCell} (hm : Memory.wfFrom MCell.unset lo m = true) :
    Memory.read .unset (rowOutside n m) a = if n ≤ a then Memory.read .unset m a else .unset := by
  induction m generalizing lo with
  | nil => simp [rowOutside, Memory.read]
  | cons c m ih =>
    obtain ⟨k, v⟩ := c
    simp only [Memory.wfFrom, Bool.and_eq_true, decide_eq_true_eq] at hm
    have ih' := ih hm.2.2
    have hcons : rowOutside n ((k, v) :: m) = if n ≤ k then (k, v) :: rowOutside n m else rowOutside n m := by
      simp only [rowOutside, List.filter_cons, decide_eq_true_eq]
    rw [hcons]
    by_cases hn : n ≤ k
    · simp only [hn, if_true]
      by_cases hak : a = k
      · simp [Memory.read, hak, hn]
      · by_cases hlt : a < k
        · simp [Memory.read, hak, hlt]
        · simp only [Memory.read, hak, hlt, if_false]
          exact ih'
    · simp only [hn, if_false]
      rw [ih']
      by_cases hna : n ≤ a
      · have h1 : a ≠ k := by omega
        have h2 : ¬ a < k := by omega
        simp [Memory.read, hna, h1, h2]
      · simp [hna]

theorem wfFrom_rowOutside {lo n : Nat} {m : Memory MCell} (hm : Memory.wfFrom MCell.unset lo m = true) :
    Memory.wfFrom MCell.unset lo (rowOutside n m) = true :=
  wfFrom_filter hm _

/-- The row that `gridClear` leaves in place of a row. -/
def clearedRow (n r : Nat) (row : Memory MCell) : Memory MCell := if r < n then rowOutside n row else row

theorem gridClear_cons (n k : Nat) (row : Memory MCell) (g : Grid) :
    gridClear n ((k, row) :: g) =
      if clearedRow n k row = [] then gridClear n g else (k, clearedRow n k row) :: gridClear n g := by
  unfold gridClear clearedRow
  rw [List.filterMap_cons]
  by_cases h : (if k < n then rowOutside n row else row) = []
  · simp [h]
  · simp [h]

theorem wfFrom_gridClear {lo n : Nat} {g : Grid} (hg : Memory.wfFrom [] lo g = true) :
    Memory.wfFrom [] lo (gridClear n g) = true := by
  induction g generalizing lo with
  | nil => rfl
  | cons c g ih =>
    obtain ⟨k, row⟩ := c
    simp only [Memory.wfFrom, Bool.and_eq_true, decide_eq_true_eq] at hg
    rw [gridClear_cons]
    split
    · exact Memory.wfFrom_mono (by omega) (ih hg.2.2)
    · rename_i h
      simp only [Memory.wfFrom, Bool.and_eq_true, decide_eq_true_eq]
      exact ⟨hg.1, h, ih hg.2.2⟩

theorem read_gridClear {lo n r : Nat} {g : Grid} (hg : Memory.wfFrom [] lo g = true) :
    Memory.read [] (gridClear n g) r = clearedRow n r (Memory.read [] g r) := by
  induction g generalizing lo with
  | nil => simp [gridClear, Memory.read, clearedRow, rowOutside]
  | cons c g ih =>
    obtain ⟨k, row⟩ := c
    simp only [Memory.wfFrom, Bool.and_eq_true, decide_eq_true_eq] at hg
    have ih' := ih hg.2.2
    rw [gridClear_cons]
    by_cases hrk : r = k
    · subst hrk
      split
      · rename_i h
        rw [Memory.read_below (wfFrom_gridClear hg.2.2) (Nat.lt_succ_self r)]
        simp [Memory.read, h]
      · simp [Memory.read]
    · by_cases hlt : r < k
      · have hnil : clearedRow n r ([] : Memory MCell) = [] := by simp [clearedRow, rowOutside]
        split
        · rw [Memory.read_below (wfFrom_gridClear hg.2.2) (by omega : r < k + 1)]
          simp [Memory.read, hrk, hlt, hnil]
        · simp [Memory.read, hrk, hlt, hnil]
      · split
        · simp only [Memory.read, hrk, hlt, if_false]
          exact ih'
        · simp only [Memory.read, hrk, hlt, if_false]
          exact ih'

/-- Clearing the square keeps the canonical form of MAT. -/
theorem gridWf_clear {g : Grid} (hg : gridWf g = true) (n : Nat) : gridWf (gridClear n g) = true := by
  have hg' := hg
  simp only [gridWf, Bool.and_eq_true, List.all_eq_true] at hg' ⊢
  refine ⟨wfFrom_gridClear hg'.1, fun x hx => ?_⟩
  unfold gridClear at hx
  rw [List.mem_filterMap] at hx
  obtain ⟨y, hy, hxy⟩ := hx
  have hrow := hg'.2 _ hy
  by_cases hlt : y.1 < n
  · by_cases he : rowOutside n y.2 = []
    · simp [hlt, he] at hxy
    · simp only [hlt, if_true, he, if_false, Option.some.injEq] at hxy
      subst hxy
      exact wfFrom_rowOutside hrow
  · by_cases he : y.2 = []
    · simp [hlt, he] at hxy
    · simp only [hlt, if_false, he, Option.some.injEq] at hxy
      subst hxy
      exact hrow

/-- What MAT reads as after the square has been cleared (R257). -/
theorem gridGet_clear {g : Grid} (hg : gridWf g = true) (n r c : Nat) :
    gridGet (gridClear n g) r c = if r < n ∧ c < n then .unset else gridGet g r c := by
  unfold gridGet
  rw [read_gridClear (gridWf_rows hg)]
  unfold clearedRow
  by_cases h : r < n
  · simp only [h, if_true, true_and]
    rw [read_rowOutside (gridWf_row hg r)]
    by_cases h2 : c < n
    · simp [h2]
    · simp [h2, Nat.not_lt.mp h2]
  · simp [h]

/-! ### The state's memories at reset -/

/-- After a reset both memories are in canonical form. -/
theorem resetOf_memWf (p : Config.Params) (o : Outside) : (State.resetOf p o).memWf = true := rfl

end Sys2Proof.Machine
end

