-- ==== Sys2Proof/Laws/PerInstr.lean ====
section
/-! SUPPORT. The per-instruction families (LAWS.json): each states something of an instruction as syntax, with one
lemma per constructor of `Instr`. -/

namespace Sys2Proof.Laws

/-- The encoded word carries the command's opcode in bits [31:24] (R80, R87). -/
def OpcodeField.Statement (i : Instr) : Prop := opField (encode i) = i.opcode

theorem OpcodeField.nop : OpcodeField.Statement .nop :=
  opField_wordR (Instr.opcode_lt _) (by decide) (by decide) (by decide)

theorem OpcodeField.li (rd : Reg) (imm : BitVec 16) : OpcodeField.Statement (.li rd imm) :=
  opField_wordI (Instr.opcode_lt _) rd.isLt (by decide) imm.isLt

theorem OpcodeField.add (rd : Reg) (ra : Reg) (rb : Reg) : OpcodeField.Statement (.add rd ra rb) :=
  opField_wordR (Instr.opcode_lt _) rd.isLt ra.isLt rb.isLt

theorem OpcodeField.sub (rd : Reg) (ra : Reg) (rb : Reg) : OpcodeField.Statement (.sub rd ra rb) :=
  opField_wordR (Instr.opcode_lt _) rd.isLt ra.isLt rb.isLt

theorem OpcodeField.xor (rd : Reg) (ra : Reg) (rb : Reg) : OpcodeField.Statement (.xor rd ra rb) :=
  opField_wordR (Instr.opcode_lt _) rd.isLt ra.isLt rb.isLt

theorem OpcodeField.rdsr (rd : Reg) (off : BitVec 16) : OpcodeField.Statement (.rdsr rd off) :=
  opField_wordI (Instr.opcode_lt _) rd.isLt (by decide) off.isLt

theorem OpcodeField.setver (imm : BitVec 16) : OpcodeField.Statement (.setver imm) :=
  opField_wordI (Instr.opcode_lt _) (by decide) (by decide) imm.isLt

theorem OpcodeField.setecl (imm : BitVec 16) : OpcodeField.Statement (.setecl imm) :=
  opField_wordI (Instr.opcode_lt _) (by decide) (by decide) imm.isLt

theorem OpcodeField.setmask (imm : BitVec 16) : OpcodeField.Statement (.setmask imm) :=
  opField_wordI (Instr.opcode_lt _) (by decide) (by decide) imm.isLt

theorem OpcodeField.lui (rd : Reg) (imm : BitVec 16) : OpcodeField.Statement (.lui rd imm) :=
  opField_wordI (Instr.opcode_lt _) rd.isLt (by decide) imm.isLt

theorem OpcodeField.gfExp (rd : Reg) (ra : Reg) : OpcodeField.Statement (.gfExp rd ra) :=
  opField_wordR (Instr.opcode_lt _) rd.isLt ra.isLt (by decide)

theorem OpcodeField.gfExpi (rd : Reg) (imm : BitVec 16) : OpcodeField.Statement (.gfExpi rd imm) :=
  opField_wordI (Instr.opcode_lt _) rd.isLt (by decide) imm.isLt

theorem OpcodeField.gfLog (rd : Reg) (ra : Reg) : OpcodeField.Statement (.gfLog rd ra) :=
  opField_wordR (Instr.opcode_lt _) rd.isLt ra.isLt (by decide)

theorem OpcodeField.gfMul (rd : Reg) (ra : Reg) (rb : Reg) : OpcodeField.Statement (.gfMul rd ra rb) :=
  opField_wordR (Instr.opcode_lt _) rd.isLt ra.isLt rb.isLt

theorem OpcodeField.pClr (pd : PReg) : OpcodeField.Statement (.pClr pd) :=
  opField_wordR (Instr.opcode_lt _) (preg_lt pd) (by decide) (by decide)

theorem OpcodeField.pPushi (pd : PReg) (imm : Byte) : OpcodeField.Statement (.pPushi pd imm) :=
  opField_wordI (Instr.opcode_lt _) (preg_lt pd) (by decide) (byte_lt imm)

theorem OpcodeField.pPush (pd : PReg) (ra : Reg) : OpcodeField.Statement (.pPush pd ra) :=
  opField_wordR (Instr.opcode_lt _) (preg_lt pd) ra.isLt (by decide)

theorem OpcodeField.pNorm (pd : PReg) (shift : BitVec 16) : OpcodeField.Statement (.pNorm pd shift) :=
  opField_wordI (Instr.opcode_lt _) (preg_lt pd) (by decide) shift.isLt

theorem OpcodeField.pCopy (pd : PReg) (pa : PReg) : OpcodeField.Statement (.pCopy pd pa) :=
  opField_wordR (Instr.opcode_lt _) (preg_lt pd) (preg_lt pa) (by decide)

theorem OpcodeField.pMul (pd : PReg) (pa : PReg) (pb : PReg) : OpcodeField.Statement (.pMul pd pa pb) :=
  opField_wordR (Instr.opcode_lt _) (preg_lt pd) (preg_lt pa) (preg_lt pb)

theorem OpcodeField.pMod (pd : PReg) (pa : PReg) (pb : PReg) : OpcodeField.Statement (.pMod pd pa pb) :=
  opField_wordR (Instr.opcode_lt _) (preg_lt pd) (preg_lt pa) (preg_lt pb)

theorem OpcodeField.pGen (pd : PReg) (ra : Reg) : OpcodeField.Statement (.pGen pd ra) :=
  opField_wordR (Instr.opcode_lt _) (preg_lt pd) ra.isLt (by decide)

theorem OpcodeField.pLen (rd : Reg) (pa : PReg) : OpcodeField.Statement (.pLen rd pa) :=
  opField_wordR (Instr.opcode_lt _) rd.isLt (preg_lt pa) (by decide)

theorem OpcodeField.pGet (rd : Reg) (pa : PReg) (rb : Reg) : OpcodeField.Statement (.pGet rd pa rb) :=
  opField_wordR (Instr.opcode_lt _) rd.isLt (preg_lt pa) rb.isLt

theorem OpcodeField.bbClr : OpcodeField.Statement .bbClr :=
  opField_wordR (Instr.opcode_lt _) (by decide) (by decide) (by decide)

theorem OpcodeField.bbPut (n : BitVec 5) (imm : BitVec 16) : OpcodeField.Statement (.bbPut n imm) :=
  opField_wordB (Instr.opcode_lt _) n.isLt imm.isLt

theorem OpcodeField.bbPutr (ra : Reg) (n : BitVec 16) : OpcodeField.Statement (.bbPutr ra n) :=
  opField_wordI (Instr.opcode_lt _) (by decide) ra.isLt n.isLt

theorem OpcodeField.bbGetbit (rd : Reg) (ra : Reg) : OpcodeField.Statement (.bbGetbit rd ra) :=
  opField_wordR (Instr.opcode_lt _) rd.isLt ra.isLt (by decide)

theorem OpcodeField.bbGetbyte (rd : Reg) (ra : Reg) : OpcodeField.Statement (.bbGetbyte rd ra) :=
  opField_wordR (Instr.opcode_lt _) rd.isLt ra.isLt (by decide)

theorem OpcodeField.bbFinal : OpcodeField.Statement .bbFinal :=
  opField_wordR (Instr.opcode_lt _) (by decide) (by decide) (by decide)

theorem OpcodeField.tblQ (rd : Reg) (ra : Reg) (sel : Byte) (k : Byte) : OpcodeField.Statement (.tblQ rd ra sel k) :=
  opField_wordI (Instr.opcode_lt _) rd.isLt ra.isLt (tblImm_lt sel k)

theorem OpcodeField.rsEncode : OpcodeField.Statement .rsEncode :=
  opField_wordR (Instr.opcode_lt _) (by decide) (by decide) (by decide)

theorem OpcodeField.cwRd (rd : Reg) (ra : Reg) : OpcodeField.Statement (.cwRd rd ra) :=
  opField_wordR (Instr.opcode_lt _) rd.isLt ra.isLt (by decide)

theorem OpcodeField.bchFmt (rd : Reg) (ra : Reg) : OpcodeField.Statement (.bchFmt rd ra) :=
  opField_wordR (Instr.opcode_lt _) rd.isLt ra.isLt (by decide)

theorem OpcodeField.bchVer (rd : Reg) (ra : Reg) : OpcodeField.Statement (.bchVer rd ra) :=
  opField_wordR (Instr.opcode_lt _) rd.isLt ra.isLt (by decide)

theorem OpcodeField.mInit : OpcodeField.Statement .mInit :=
  opField_wordR (Instr.opcode_lt _) (by decide) (by decide) (by decide)

theorem OpcodeField.mProbes : OpcodeField.Statement .mProbes :=
  opField_wordR (Instr.opcode_lt _) (by decide) (by decide) (by decide)

theorem OpcodeField.mAlign : OpcodeField.Statement .mAlign :=
  opField_wordR (Instr.opcode_lt _) (by decide) (by decide) (by decide)

theorem OpcodeField.mTiming : OpcodeField.Statement .mTiming :=
  opField_wordR (Instr.opcode_lt _) (by decide) (by decide) (by decide)

theorem OpcodeField.mTypeinfo (t : Bool) : OpcodeField.Statement (.mTypeinfo t) :=
  opField_wordI (Instr.opcode_lt _) (by decide) (by decide) (bool_lt t)

theorem OpcodeField.mTypenum (t : Bool) : OpcodeField.Statement (.mTypenum t) :=
  opField_wordI (Instr.opcode_lt _) (by decide) (by decide) (bool_lt t)

theorem OpcodeField.mMap : OpcodeField.Statement .mMap :=
  opField_wordR (Instr.opcode_lt _) (by decide) (by decide) (by decide)

theorem OpcodeField.mRead (rd : Reg) (ra : Reg) (rb : Reg) : OpcodeField.Statement (.mRead rd ra rb) :=
  opField_wordR (Instr.opcode_lt _) rd.isLt ra.isLt rb.isLt

theorem OpcodeField.maskq (rd : Reg) (ra : Reg) (rb : Reg) : OpcodeField.Statement (.maskq rd ra rb) :=
  opField_wordR (Instr.opcode_lt _) rd.isLt ra.isLt rb.isLt

theorem OpcodeField.mScore : OpcodeField.Statement .mScore :=
  opField_wordR (Instr.opcode_lt _) (by decide) (by decide) (by decide)

theorem OpcodeField.mBuild (t : Bool) : OpcodeField.Statement (.mBuild t) :=
  opField_wordI (Instr.opcode_lt _) (by decide) (by decide) (bool_lt t)

theorem OpcodeField.mSelect : OpcodeField.Statement .mSelect :=
  opField_wordR (Instr.opcode_lt _) (by decide) (by decide) (by decide)

end Sys2Proof.Laws
end

