-- ==== Sys2Proof/Tests/Slice0.lean ====
section
/-! SUPPORT. The model's own tests. Every expected value is from the spec: its examples, its tables and vectors, or
hand calculation from its rules; none is the model's answer. A theorem `test_…` checks a decoding or one step;
a theorem `meets_…` shows a concrete state and operands that meet the hypotheses of a statement, clause by clause,
at the boundary values of its ranges. -/

namespace Sys2Proof.Tests

open Sys2Proof.Machine Sys2Proof.Claims

/-! ### States for the tests -/

/-- The reset state with some scalar registers set. -/
def regsOf (l : List (Reg × Word)) : State := l.foldl (fun s x => s.setReg x.1 x.2) State.reset

/-- The reset state with some polynomial registers set. -/
def polysOf (l : List (PReg × List Byte)) : State := l.foldl (fun s x => s.setPoly x.1 x.2) State.reset

/-- The reset state with a version, a build state of an empty matrix of that version, and CW_READY. -/
def stage (ver : BitVec 6) (m : MState) (side : BitVec 8) (ready : Bool) : State :=
  { State.reset with
    conf := { ver := ver, ecl := 0, mask := 0 }
    mx := { cells := [], side := side, mstate := m, mtest := false }
    cw := { cells := [], len := 0, ready := ready } }

/-- A state with the given turns to come. -/
def turned (l : List Turn) (s : State) : State := { s with outside := { s.outside with turns := l } }

/-- A halted state. -/
def halted : State := State.reset.raised { code := .gfDomain, info := 5 }

/-- A state with a NOP in execution. -/
def busyNop : State := { State.reset with busy := true, cmd := 0 }

/-- The state a command leads to. -/
def after (i : Instr) (s : State) : State :=
  match exec i s with
  | .next t => t
  | .fault _ | .refused _ => s

/-- The error a command leaves: its code and its detail. -/
def errorOf (i : Instr) (s : State) : ErrCode × Word := ((after i s).error.code, (after i s).error.info)

/-! ### Well-formedness: an ill-formed term for each check -/

theorem test_wf_rdsr_above : (Instr.rdsr 1 0x100).wf = false := by decide
theorem test_wf_rdsr_unaligned : (Instr.rdsr 1 0x0FA).wf = false := by decide
theorem test_wf_bbPut_count : (Instr.bbPut 17 0).wf = false := by decide
theorem test_wf_bbPutr_count : (Instr.bbPutr 5 33).wf = false := by decide
theorem test_wf_tblQ_selector : (Instr.tblQ 2 1 12 0).wf = false := by decide
theorem test_wf_tblQ_index : (Instr.tblQ 2 1 8 1).wf = false := by decide
theorem test_wf_boundaries :
    (Instr.rdsr 1 0x0FC).wf ∧ (Instr.bbPut 16 0).wf ∧ (Instr.bbPutr 5 32).wf ∧ (Instr.tblQ 2 1 11 0).wf
      ∧ (Instr.tblQ 2 1 9 255).wf := by decide

/-! ### Decoding: one word for every command, from rule R87's table and the examples of R93 and of each rule -/

theorem test_decode_nop : decode 0x00000000 = .ok .nop := by decide
theorem test_decode_li : decode 0x0110FFFF = .ok (.li 1 0xFFFF) := by decide
theorem test_decode_add : decode 0x02312000 = .ok (.add 3 1 2) := by decide
theorem test_decode_sub : decode 0x03312000 = .ok (.sub 3 1 2) := by decide
theorem test_decode_xor : decode 0x04F0E000 = .ok (.xor 15 0 14) := by decide
theorem test_decode_rdsr : decode 0x052000C4 = .ok (.rdsr 2 0x0C4) := by decide
theorem test_decode_setver : decode 0x06000001 = .ok (.setver 1) := by decide
theorem test_decode_setecl : decode 0x07000003 = .ok (.setecl 3) := by decide
theorem test_decode_setmask : decode 0x08000003 = .ok (.setmask 3) := by decide
theorem test_decode_lui : decode 0x09100002 = .ok (.lui 1 0x0002) := by decide
theorem test_decode_gfExp : decode 0x10210000 = .ok (.gfExp 2 1) := by decide
theorem test_decode_gfExpi : decode 0x11100007 = .ok (.gfExpi 1 7) := by decide
theorem test_decode_gfLog : decode 0x12210000 = .ok (.gfLog 2 1) := by decide
theorem test_decode_gfMul : decode 0x13012000 = .ok (.gfMul 0 1 2) := by decide
theorem test_decode_pClr : decode 0x20100000 = .ok (.pClr 1) := by decide
theorem test_decode_pPushi : decode 0x2120001D = .ok (.pPushi 2 0x1D) := by decide
theorem test_decode_pPush : decode 0x22010000 = .ok (.pPush 0 1) := by decide
theorem test_decode_pNorm : decode 0x23100002 = .ok (.pNorm 1 2) := by decide
theorem test_decode_pCopy : decode 0x24300000 = .ok (.pCopy 3 0) := by decide
theorem test_decode_pMul : decode 0x25012000 = .ok (.pMul 0 1 2) := by decide
theorem test_decode_pMod : decode 0x26012000 = .ok (.pMod 0 1 2) := by decide
theorem test_decode_pGen : decode 0x27210000 = .ok (.pGen 2 1) := by decide
theorem test_decode_pLen : decode 0x28100000 = .ok (.pLen 1 0) := by decide
theorem test_decode_pGet : decode 0x29201000 = .ok (.pGet 2 0 1) := by decide
theorem test_decode_bbClr : decode 0x30000000 = .ok .bbClr := by decide
theorem test_decode_bbPut : decode 0x3180FFFF = .ok (.bbPut 16 0xFFFF) := by decide
theorem test_decode_bbPutr : decode 0x3205000A = .ok (.bbPutr 5 10) := by decide
theorem test_decode_bbGetbit : decode 0x33210000 = .ok (.bbGetbit 2 1) := by decide
theorem test_decode_bbGetbyte : decode 0x34200000 = .ok (.bbGetbyte 2 0) := by decide
theorem test_decode_bbFinal : decode 0x35000000 = .ok .bbFinal := by decide
theorem test_decode_tblQ : decode 0x40210109 = .ok (.tblQ 2 1 9 1) := by decide
theorem test_decode_rsEncode : decode 0x41000000 = .ok .rsEncode := by decide
theorem test_decode_cwRd : decode 0x42210000 = .ok (.cwRd 2 1) := by decide
theorem test_decode_bchFmt : decode 0x50430000 = .ok (.bchFmt 4 3) := by decide
theorem test_decode_bchVer : decode 0x51430000 = .ok (.bchVer 4 3) := by decide
theorem test_decode_mInit : decode 0x60000000 = .ok .mInit := by decide
theorem test_decode_mProbes : decode 0x61000000 = .ok .mProbes := by decide
theorem test_decode_mAlign : decode 0x62000000 = .ok .mAlign := by decide
theorem test_decode_mTiming : decode 0x63000000 = .ok .mTiming := by decide
theorem test_decode_mTypeinfo : decode 0x64000001 = .ok (.mTypeinfo true) := by decide
theorem test_decode_mTypenum : decode 0x65000000 = .ok (.mTypenum false) := by decide
theorem test_decode_mMap : decode 0x66000000 = .ok .mMap := by decide
theorem test_decode_mRead : decode 0x67789000 = .ok (.mRead 7 8 9) := by decide
theorem test_decode_maskq : decode 0x70789000 = .ok (.maskq 7 8 9) := by decide
theorem test_decode_mScore : decode 0x71000000 = .ok .mScore := by decide
theorem test_decode_mBuild : decode 0x72000001 = .ok (.mBuild true) := by decide
theorem test_decode_mSelect : decode 0x73000000 = .ok .mSelect := by decide

/-! Bit by bit, one word per family: the fields of formats R, I and B (R82 to R84). -/

/-- 00000001_0001_0000_1111111111111111 -/
theorem test_bits_control : decode 0b00000001_0001_0000_1111111111111111 = .ok (.li 1 0xFFFF) := by decide
/-- 00010011_0000_0001_0010_000000000000 -/
theorem test_bits_gf : decode 0b00010011_0000_0001_0010_000000000000 = .ok (.gfMul 0 1 2) := by decide
/-- 00100110_0000_0001_0010_000000000000 -/
theorem test_bits_poly : decode 0b00100110_0000_0001_0010_000000000000 = .ok (.pMod 0 1 2) := by decide
/-- 00110001_00100_000_0000000000000100 -/
theorem test_bits_bitbuffer : decode 0b00110001_00100_000_0000000000000100 = .ok (.bbPut 4 0x4) := by decide
/-- 01000000_0010_0001_00000001_00001001 -/
theorem test_bits_blocks : decode 0b01000000_0010_0001_00000001_00001001 = .ok (.tblQ 2 1 9 1) := by decide
/-- 01010000_0100_0011_0000_000000000000 -/
theorem test_bits_bch : decode 0b01010000_0100_0011_0000_000000000000 = .ok (.bchFmt 4 3) := by decide
/-- 01100111_0111_1000_1001_000000000000 -/
theorem test_bits_matrix : decode 0b01100111_0111_1000_1001_000000000000 = .ok (.mRead 7 8 9) := by decide
/-- 01110010_0000_0000_0000000000000001 -/
theorem test_bits_mask : decode 0b01110010_0000_0000_0000000000000001 = .ok (.mBuild true) := by decide

/-! Refusals, by name (R86, R88, R89). -/

theorem test_refuse_reservedOpcode : decode 0x0A000000 = .error .undefinedOpcode := by decide
theorem test_refuse_lastOpcode : decode 0xFF000000 = .error .undefinedOpcode := by decide
theorem test_refuse_polynomial : decode 0x20400000 = .error .reservedPolynomial := by decide
theorem test_refuse_count : decode 0x31880000 = .error .outOfRange := by decide
theorem test_refuse_formatZ : decode 0x00000001 = .error .mustBeZero := by decide
theorem test_refuse_flagAboveOne : decode 0x72000002 = .error .mustBeZero := by decide
theorem test_tableWord : decodeTableWord 32 0x73000000 = some .mSelect := by decide

/-! ### Control, scalar and configuration commands (the examples of R101 to R111) -/

theorem test_nop_counts : (after .nop { State.reset with cmdCnt := 5 }).cmdCnt = 6 := by decide
theorem test_li_negative : (after (.li 1 0xFFFF) State.reset).reg 1 = 0xFFFFFFFF := by decide
theorem test_li_positive : (after (.li 2 0x7FFF) State.reset).reg 2 = 0x00007FFF := by decide
theorem test_add_wraps : (after (.add 3 1 2) (regsOf [(1, 0xFFFFFFFF), (2, 2)])).reg 3 = 1 := by decide
theorem test_add_sourceIsDestination : (after (.add 1 1 1) (regsOf [(1, 3)])).reg 1 = 6 := by decide
theorem test_sub_wraps : (after (.sub 3 1 2) (regsOf [(2, 1)])).reg 3 = 0xFFFFFFFF := by decide
theorem test_xor : (after (.xor 3 1 2) (regsOf [(1, 0x57), (2, 0x83)])).reg 3 = 0xD4 := by decide
theorem test_rdsr_id : (after (.rdsr 1 0x000) State.reset).reg 1 = 0x51524331 := by decide
theorem test_rdsr_register : (after (.rdsr 2 0x0C4) (regsOf [(1, 77)])).reg 2 = 77 := by decide
theorem test_setver_invalidates :
    let t := after (.setver 1) (stage 2 .mapped 25 true)
    t.conf.ver = 1 ∧ t.mx.mstate = .none ∧ t.mx.side = 0 ∧ t.cw.ready = false := by decide
theorem test_setver_above : errorOf (.setver 41) State.reset = (.badParameter, 41) := by decide
theorem test_setecl_above : errorOf (.setecl 4) State.reset = (.badParameter, 4) := by decide
theorem test_setmask_keepsStream :
    let t := after (.setmask 3) (stage 2 .mapped 25 true)
    t.conf.mask = 3 ∧ t.mx.mstate = .none ∧ t.cw.ready = true := by decide
theorem test_lui : (after (.lui 1 0x0002) State.reset).reg 1 = 0x00020000 := by decide

/-! ### GF(256) (the examples of R125 to R128) -/

theorem test_gfExp : (after (.gfExp 2 1) (regsOf [(1, 8)])).reg 2 = 0x1D := by decide
theorem test_gfExp_mostNegative : (after (.gfExp 2 1) (regsOf [(1, 0x80000000)])).reg 2 = 0xCC := by decide
theorem test_gfExpi_minusOne : (after (.gfExpi 1 0xFFFF) State.reset).reg 1 = 0x8E := by decide
theorem test_gfLog : (after (.gfLog 2 1) (regsOf [(1, 0x1D)])).reg 2 = 8 := by decide
theorem test_gfLog_above : errorOf (.gfLog 2 1) (regsOf [(1, 256)]) = (.gfDomain, 256) := by decide
theorem test_gfMul : (after (.gfMul 0 1 2) (regsOf [(1, 0x57), (2, 0x83)])).reg 0 = 0x31 := by decide
theorem test_gfMul_firstOperand : errorOf (.gfMul 0 1 2) (regsOf [(1, 0), (2, 300)]) = (.gfDomain, 0) := by decide

/-! ### Polynomials (the examples of R144 to R153, and R154's first row) -/

theorem test_pClr : (after (.pClr 1) (polysOf [(1, [5])])).poly 1 = [] := by decide
theorem test_pPushi : (after (.pPushi 2 2) (polysOf [(2, [1, 3])])).poly 2 = [1, 3, 2] := by decide
theorem test_pPush : (after (.pPush 0 1) ((polysOf [(0, [0x10])]).setReg 1 0xEC)).poly 0 = [0x10, 0xEC] := by decide
theorem test_pPush_valueFirst :
    errorOf (.pPush 0 1) ((polysOf [(0, List.replicate 256 1)]).setReg 1 256) = (.badParameter, 256) := by
  decide +kernel
theorem test_pNorm : (after (.pNorm 1 2) (polysOf [(1, [0, 0, 5, 7])])).poly 1 = [5, 7, 0, 0] := by decide
theorem test_pNorm_empty : errorOf (.pNorm 1 2) State.reset = (.malformedPolynomial, 0) := by decide
theorem test_pCopy : (after (.pCopy 3 0) (polysOf [(0, [0, 4])])).poly 3 = [0, 4] := by decide
theorem test_pMul : (after (.pMul 0 1 2) (polysOf [(1, [1, 2]), (2, [1, 3])])).poly 0 = [1, 1, 6] := by
  decide +kernel
theorem test_pMul_zeroCoefficient :
    errorOf (.pMul 0 1 2) (polysOf [(1, [1, 0]), (2, [1, 3])]) = (.gfDomain, 0) := by decide +kernel
theorem test_pMod :
    (after (.pMod 0 1 2) (polysOf [(1, [0x12, 0x34, 0x56, 0, 0]), (2, [1, 3, 2])])).poly 0 = [0x98, 0xE8] := by
  decide +kernel
theorem test_pMod_shortDividend :
    (after (.pMod 0 1 2) (polysOf [(1, [0, 7]), (2, [1, 3, 2])])).poly 0 = [0, 7] := by decide
theorem test_pGen :
    (after (.pGen 2 1) (regsOf [(1, 7)])).poly 2 = [0x01, 0x7F, 0x7A, 0x9A, 0xA4, 0x0B, 0x44, 0x75] := by
  decide +kernel
theorem test_pGen_above : errorOf (.pGen 2 1) (regsOf [(1, 256)]) = (.resourceOverflow, 256) := by decide
theorem test_pLen : (after (.pLen 1 0) (polysOf [(0, [1, 1, 6])])).reg 1 = 3 := by decide
theorem test_pGet : (after (.pGet 2 0 1) ((polysOf [(0, [1, 1, 6])]).setReg 1 2)).reg 2 = 6 := by decide
theorem test_pGet_atLength :
    errorOf (.pGet 2 0 1) ((polysOf [(0, [1, 1, 6])]).setReg 1 3) = (.outOfRangeAccess, 3) := by decide

/-! ### The bit buffer (the examples of R172 to R177) -/

theorem test_bbClr : (after .bbClr { State.reset with bb := [true] }).bb = [] := by decide
theorem test_bbPut : (after (.bbPut 4 0x4) State.reset).bb = [false, true, false, false] := by decide
theorem test_bbPut_truncates : (after (.bbPut 3 0xFFFD) State.reset).bb = [true, false, true] := by decide
theorem test_bbPutr :
    (after (.bbPutr 5 10) (regsOf [(5, 123)])).bb =
      [false, false, false, true, true, true, true, false, true, true] := by decide
theorem test_bbGetbit :
    (after (.bbGetbit 2 1) { regsOf [(1, 1)] with bb := [false, true, false, false] }).reg 2 = 1 := by decide
theorem test_bbGetbit_atLength :
    errorOf (.bbGetbit 2 1) { regsOf [(1, 4)] with bb := [false, true, false, false] } = (.outOfRangeAccess, 4) := by
  decide
theorem test_bbGetbyte_partial :
    (after (.bbGetbyte 2 0) { State.reset with bb := [true, false, true] }).reg 2 = 0xA0 := by decide
theorem test_bbFinal_noTerminator :
    let t := after .bbFinal { stage 1 .none 0 true with bb := List.replicate 150 true }
    t.bb = List.replicate 150 true ++ [false, false] ∧ t.cw.ready = false := by decide +kernel

/-- The 41 bits of the ISO segment "01234567" (R177). -/
def isoBits : List Bool :=
  msbFirst 0b0001 4 ++ msbFirst 8 10 ++ msbFirst 12 10 ++ msbFirst 345 10 ++ msbFirst 67 7

/-- Version 1, MEDIUM, with a given buffer. -/
def isoState (bb : List Bool) : State :=
  { State.reset with conf := { ver := 1, ecl := 1, mask := 0 }, bb := bb }

/-- The 16 data bytes of the ISO example (R177, R217). -/
def isoBytes : List Byte := [0x10, 0x20, 0x0C, 0x56, 0x61, 0x80, 0xEC, 0x11, 0xEC, 0x11, 0xEC, 0x11, 0xEC, 0x11, 0xEC, 0x11]

theorem test_bbFinal_iso : bytesOf 16 (after .bbFinal (isoState isoBits)).bb = isoBytes := by decide +kernel

/-! ### Blocks and Reed-Solomon (the examples of R213, R217, R218) -/

theorem test_tblQ_capacity : (after (.tblQ 2 1 0 0) (regsOf [(1, 1)])).reg 2 = 19 := by decide
theorem test_tblQ_alignment : (after (.tblQ 2 1 9 1) (regsOf [(1, 7)])).reg 2 = 22 := by decide
theorem test_rsEncode_iso :
    let t := after .rsEncode (isoState (isoBytes.flatMap fun b => msbFirst b.toNat 8))
    t.cw.len = 26 ∧ t.cw.ready = true ∧
      t.stream = isoBytes ++ [0xA5, 0x24, 0xD4, 0xC1, 0xED, 0x36, 0xC7, 0x87, 0x2C, 0x55] := by decide +kernel
theorem test_rsEncode_notFull : errorOf .rsEncode (isoState isoBits) = (.sequenceError, 41) := by decide +kernel
theorem test_cwRd :
    (after (.cwRd 2 1) { regsOf [(1, 16)] with cw := { cells := [(16, 0xA5)], len := 26, ready := true } }).reg 2
      = 0xA5 := by decide
theorem test_cwRd_notReady : errorOf (.cwRd 2 1) State.reset = (.sequenceError, 0) := by decide

/-! ### BCH (the examples of R245, R246) -/

theorem test_bchFmt : (after (.bchFmt 4 3) (regsOf [(3, 8)])).reg 4 = 0x77C4 := by decide +kernel
theorem test_bchFmt_above : errorOf (.bchFmt 4 3) (regsOf [(3, 32)]) = (.badParameter, 32) := by decide
theorem test_bchVer : (after (.bchVer 4 3) (regsOf [(3, 7)])).reg 4 = 0x07C94 := by decide +kernel

/-! ### The matrix builder (the examples of R257 to R272) -/

theorem test_mInit :
    let t := after .mInit { stage 1 .none 0 false with mx := { cells := [(3, [(4, .dark), (21, .light)])], side := 0, mstate := .none, mtest := true } }
    t.mx.side = 21 ∧ t.mx.mstate = .empty ∧ t.mx.mtest = false ∧ cell t 3 4 = .unset ∧ cell t 3 21 = .light := by
  decide
theorem test_mInit_noVersion : errorOf .mInit State.reset = (.badParameter, 0) := by decide
theorem test_mProbes :
    let t := after .mProbes (stage 1 .empty 21 false)
    t.mx.mstate = .probes ∧ cell t 0 0 = .dark ∧ cell t 1 1 = .light ∧ cell t 3 3 = .dark ∧ cell t 7 7 = .light ∧
      cell t 14 0 = .dark ∧ cell t 13 0 = .light ∧ cell t 8 8 = .unset := by decide +kernel
theorem test_mProbes_sequence : errorOf .mProbes (stage 1 .align 21 false) = (.sequenceError, 0x30) := by decide
theorem test_mAlign :
    let t := after .mAlign (stage 2 .probes 25 false)
    cell t 18 18 = .dark ∧ cell t 17 17 = .light ∧ cell t 16 16 = .dark := by decide +kernel
theorem test_mTiming :
    let t := after .mTiming (stage 1 .align 21 false)
    cell t 6 8 = .dark ∧ cell t 6 9 = .light ∧ cell t 12 6 = .dark := by decide +kernel
theorem test_mTypeinfo :
    let t := after (.mTypeinfo false)
      { stage 1 .timing 21 false with conf := { ver := 1, ecl := 0, mask := 3 } }
    cell t 0 8 = .dark ∧ cell t 1 8 = .light ∧ cell t 8 0 = .dark ∧ cell t 13 8 = .dark := by decide +kernel
theorem test_mTypeinfo_test :
    let t := after (.mTypeinfo true) (stage 1 .timing 21 false)
    cell t 0 8 = .light ∧ cell t 13 8 = .light ∧ t.mx.mtest = true := by decide +kernel
theorem test_mTypenum :
    let t := after (.mTypenum false) (stage 7 .typeinfo 45 false)
    cell t 0 34 = .light ∧ cell t 0 36 = .dark ∧ cell t 36 0 = .dark ∧ t.mx.mtest = false := by decide +kernel
theorem test_mTypenum_below7 :
    let t := after (.mTypenum false) (stage 6 .typeinfo 41 false)
    t.mx.cells = [] ∧ t.mx.mstate = .typenum := by decide
theorem test_mMap :
    let t := after .mMap
      { stage 1 .typenum 21 true with
        conf := { ver := 1, ecl := 0, mask := 3 }, cw := { cells := [(0, 0x40)], len := 1, ready := true } }
    t.mx.mstate = .mapped ∧ cell t 20 20 = .light ∧ cell t 20 19 = .light := by decide +kernel
theorem test_mMap_notReady : errorOf .mMap (stage 1 .typenum 21 false) = (.sequenceError, 0x60) := by decide
theorem test_mRead_unset : (after (.mRead 7 8 9) ((stage 1 .empty 21 false).setReg 7 9)).reg 7 = 0 := by decide
theorem test_mRead_outside :
    errorOf (.mRead 7 8 9) (((stage 1 .empty 21 false).setReg 8 21).setReg 9 2) = (.outOfRangeAccess, 0x150002) := by
  decide

/-! ### Masks, scores and selection (R301 to R310) -/

theorem test_maskq :
    (after (.maskq 7 8 9) { regsOf [(8, 1), (9, 2)] with conf := { ver := 0, ecl := 0, mask := 3 } }).reg 7 = 1 := by
  decide
theorem test_maskq_rowFirst : errorOf (.maskq 7 8 9) (regsOf [(8, 177), (9, 178)]) = (.outOfRangeAccess, 177) := by
  decide
/-- A uniform 7 × 7 square by hand: the 25 inner cells have 8 equal neighbours (6 each), the 36 blocks 3 each, no run,
and D = 0, so PEN4NUM = 100 · 49. -/
theorem test_mScore_uniform :
    let t := after .mScore (stage 1 .mapped 7 true)
    t.score.pen1 = 150 ∧ t.score.pen2 = 108 ∧ t.score.pen3 = 0 ∧ t.score.pen4num = 4900 ∧ t.score.dark = 0 ∧
      t.score.score = 17542 := by decide +kernel
theorem test_mScore_sequence : errorOf .mScore (stage 1 .typenum 21 true) = (.sequenceError, 0x64) := by decide
theorem test_mBuild_noStream : errorOf (.mBuild false) (stage 1 .none 0 false) = (.sequenceError, 0) := by decide
theorem test_mBuild_flags :
    let t := after (.mBuild true) (stage 1 .none 0 true)
    t.mx.side = 21 ∧ t.mx.mtest = true ∧ t.mx.mstate = .mapped := by decide
theorem test_mSelect_noVersion : errorOf .mSelect State.reset = (.badParameter, 0) := by decide
/-- The eight trial scores of the HELLO WORLD example (R310). -/
theorem test_selectMask_hello :
    selectMask ([541202, 609680, 558319, 508609, 526649, 557683, 569431, 545130].map fun x =>
      { ScoreRegs.reset with score := x }) = 3 := by decide
theorem test_selectMask_tie :
    selectMask ([5, 4, 4, 5, 4, 5, 5, 5].map fun x => { ScoreRegs.reset with score := x }) = 1 := by decide

/-! ### The step and the bus -/

/-- The state after a step. -/
def stepped (s : State) : State :=
  match step s with
  | .next t => t
  | .fault _ | .refused _ => s

theorem test_step_runsTheWord : (stepped (State.reset.withFetchWord 32 0x0110FFFF)).reg 1 = 0xFFFFFFFF := by decide
theorem test_step_illegal :
    (stepped { State.reset.withFetchWord 32 0x20400000 with cmdCnt := 7 }).error =
      { err := true, code := .illegalCommand, cmd := 0x20400000, info := 0, cnt := 7 } := by decide
theorem test_step_overrun :
    (stepped { busyNop with overrun := some 0x73000000, cmdCnt := 4 }).error =
      { err := true, code := .cmdOverrun, cmd := 0x73000000, info := 0, cnt := 5 } := by decide
theorem test_step_accepts : (stepped (turned [.write 0x101 0x06000001] State.reset)).busy = true := by decide
theorem test_step_haltedDiscards : stepped (turned [.write 0x100 0x06000001] halted) = halted := by decide
theorem test_step_softReset : (stepped (turned [.write 0x104 1] halted)).error = ErrRecord.reset := by decide
theorem test_step_readsId : (stepped (turned [.read 0x003] State.reset)).outside.readData = some 0x51524331 := by decide

/-! ### The host's duties (the examples of R191 to R201) -/

theorem test_utf8_euro : utf8Text [0x20AC] = [0xE2, 0x82, 0xAC] := by decide
theorem test_utf8_surrogates : utf8Text [0xD83D, 0xDE00] = [0xF0, 0x9F, 0x98, 0x80] := by decide
theorem test_helloBits : segmentsBits .byteFallback 1 [⟨.byte, .bytes (List.replicate 11 0x48)⟩] = 100 := by decide
theorem test_versionSearch_seventeen :
    versionSearch .byteFallback 0 [⟨.byte, .bytes (List.replicate 17 0)⟩] = .ok 1 := by decide +kernel
theorem test_versionSearch_onTheBlock :
    ((searchVersions .byteFallback [⟨.byte, .bytes (List.replicate 18 0)⟩] [1, 2]) State.reset).2 = .ok 2 := by
  decide +kernel
theorem test_unknownMode :
    ((putSegments .standard 1 [⟨3, .bytes []⟩]) State.reset).2 = .error (.host .unsupportedMode) := by decide
theorem test_invalidCharacter :
    ((putSegments .standard 1 [⟨1, .text [65] []⟩]) State.reset).2 = .error (.host .invalidCharacter) := by decide
/-- A version above 40: the block's BAD_PARAMETER ends the encode, BB_CLR is not issued (R107, R199). -/
theorem test_encodeStopsOnError :
    let r := encodeBytes .standard [1] 0 41 State.reset
    r.2 = .error (.block 8 41) ∧ r.1.cmdCnt = 1 ∧ r.1.error.cmd = 0x06000029 := by decide +kernel
/-- Row 65536 is loaded whole and refused, with ERRINFO of its low half (R272). -/
theorem test_isDark_largeRow : ((isDarkAt 65536 3) (stage 1 .empty 21 false)).2 = .error (.block 4 3) := by
  decide +kernel
theorem test_isDark_beyondWord :
    ((isDarkAt (2 ^ 32) 0) (stage 1 .empty 21 false)).2 = .error (.host .outOfRangeAccess) := by decide +kernel
/-- The example of R92: LI32 of 0x00018000. -/
theorem test_loadWord : loadWord 8 10 0x00018000 = [.lui 8 0x0002, .li 10 0x8000, .add 8 8 10] := by decide
theorem test_numeric_groups : numericBody [1, 2, 3, 4, 5] = [⟨10, 123⟩, ⟨7, 45⟩] := by decide

/-! ### Witnesses: the hypotheses of each statement can be met -/

theorem meets_HostReadsShowTheRegisterMap :
    let idle := turned [.read 0xFFF] State.reset
    let busy := turned [.read 0x007] busyNop
    NextTurn idle (.read 0xFFF) [] ∧ Selects idle 0xFFF 0xFFC ∧ idle.busy = false ∧
      NextTurn busy (.read 0x007) [] ∧ Selects busy 0x007 0x004 ∧ busy.busy = true :=
  ⟨rfl, ⟨0xFFF, by decide, rfl, rfl⟩, rfl, rfl, ⟨0x007, by decide, rfl, rfl⟩, rfl⟩

theorem meets_HostWritesReachOnlyCmdAndCtrl :
    (∀ s ∈ [State.reset, busyNop, halted], ∀ a ∈ [0x100, 0x103],
      NextTurn (turned [.write a 5] s) (.write a 5) [] ∧ Selects (turned [.write a 5] s) a 0x100 ∧
        (turned [.write a 5] s).outside.rstN = true) ∧
    State.reset.error.err = false ∧ State.reset.busy = false ∧ busyNop.busy = true ∧ busyNop.error.err = false ∧
    busyNop.overrun = none ∧ halted.error.err = true ∧
    Selects (turned [.write 0x0FC 5] State.reset) 0x0FF 0x0FC ∧ Selects (turned [.write 0xFFC 5] State.reset) 0xFFC 0xFFC := by
  refine ⟨?_, rfl, rfl, rfl, rfl, rfl, rfl, ⟨0xFF, by decide, rfl, rfl⟩, ⟨0xFFC, by decide, rfl, rfl⟩⟩
  intro s hs a ha
  refine ⟨rfl, ?_, ?_⟩
  · simp only [List.mem_cons, List.not_mem_nil, or_false] at hs ha
    rcases ha with rfl | rfl <;> rcases hs with rfl | rfl | rfl
    all_goals first | exact ⟨0x100, by decide, rfl, rfl⟩ | exact ⟨0x103, by decide, rfl, rfl⟩
  · simp only [List.mem_cons, List.not_mem_nil, or_false] at hs
    rcases hs with rfl | rfl | rfl <;> rfl

theorem meets_OnlyTheNamedCommandsWrite :
    (after (.setver 1) State.reset).conf.ver ≠ State.reset.conf.ver ∧
    (after (.setecl 1) State.reset).conf.ecl ≠ State.reset.conf.ecl ∧
    (after (.setmask 1) State.reset).conf.mask ≠ State.reset.conf.mask ∧
    (after (.bbPut 1 1) State.reset).bb ≠ State.reset.bb ∧
    (after .bbClr { State.reset with bb := [true] }).bb.length < 1 ∧
    (after (.setver 1) (stage 1 .none 0 true)).cw.ready = false ∧
    (after .mScore (stage 1 .mapped 7 true)).score ≠ (stage 1 .mapped 7 true).score ∧
    (after (.mTypeinfo true) (stage 1 .timing 21 false)).mx.mtest = true ∧
    (after .mInit { stage 1 .none 0 false with mx := { cells := [], side := 0, mstate := .none, mtest := true } }).mx.mtest
      = false := by decide +kernel

theorem meets_OnlyTheNamedCommandsWrite_stream :
    let s := isoState (isoBytes.flatMap fun b => msbFirst b.toNat 8)
    let t := after .rsEncode s
    s.cw.ready = false ∧ t.cw.ready = true ∧ t.cwm 0 ≠ s.cwm 0 ∧ t.cw.len ≠ s.cw.len := by decide +kernel

/-- Whatever the eight trials score, one of two settings of the selection registers differs from what is written. -/
theorem meets_OnlyTheNamedCommandsWrite_selection : ∃ s t, exec .mSelect s = .next t ∧ t.sel ≠ s.sel := by
  have hx : ∀ r : SelRegs, exec .mSelect { stage 1 .none 0 true with sel := r } =
      .next (({ stage 1 .none 0 true with sel := r } : State).selected
        ((List.range 8).map (stage 1 .none 0 true).trial)).complete := fun r => by
    simp only [exec, execMSelect, State.needVer, State.needStream]
    rw [raiseIf_neg (show ¬ (stage 1 .none 0 true).conf.ver = 0 by decide),
      raiseIf_neg (show ¬ (stage 1 .none 0 true).cw.ready = false by decide), State.finish_ok]
    rfl
  generalize (List.range 8).map (stage 1 .none 0 true).trial = trials at hx
  by_cases h : ((stage 1 .none 0 true).selected trials).sel = SelRegs.reset
  · exact ⟨_, _, hx { SelRegs.reset with bestMask := 7 }, fun e => absurd (h.symm.trans e) (by decide)⟩
  · exact ⟨_, _, hx SelRegs.reset, h⟩

theorem meets_BuildStateTransitions :
    let s := stage 1 .probes 21 false
    (after .mAlign s).cmdCnt = s.cmdCnt + 1 ∧ exec .mAlign s = .next (after .mAlign s) := ⟨by decide, rfl⟩

theorem meets_DecodeOfEncode : (Instr.rdsr 15 0x0FC).wf = true ∧ (Instr.tblQ 0 15 9 255).wf = true := by decide

theorem meets_EncodeOfDecode : decode 0x3180FFFF = .ok (.bbPut 16 0xFFFF) := by decide

theorem meets_IllegalWordsRaise :
    let s := { busyNop with cmd := 0x0A000000 }
    BlockNext s ∧ s.busy = true ∧ s.overrun = none ∧ ¬ Legal s.cmd ∧ Legal 0x31800000 ∧ ¬ Legal 0x31880000 := by
  refine ⟨.inl rfl, rfl, rfl, ?_, ⟨0x070000, by decide, by decide, by unfold inRange; decide⟩, ?_⟩
  · rintro ⟨z, hz, -⟩
    simp [mustBeZero] at hz
  · rintro ⟨z, -, -, hz⟩
    exact absurd (hz.2.1 (by decide)) (by decide)

theorem meets_StepRunsTheDecodedCommand :
    BlockNext busyNop ∧ BlockNext (turned [.block] busyNop) ∧ busyNop.busy = true ∧ decode busyNop.cmd = .ok .nop ∧
      exec .nop busyNop.popTurn = .next (after .nop busyNop.popTurn) ∧ (after .nop busyNop.popTurn).overrun = none ∧
      decode (BitVec.ofNat 32 0x73000000) = .ok .mSelect :=
  ⟨.inl rfl, .inr ⟨[], rfl⟩, rfl, by decide, rfl, rfl, by decide⟩

theorem meets_RdsrReadsTheRegisterMap :
    (0x0FC : BitVec 16).toNat ≤ 0x0FC ∧ (0x0FC : BitVec 16).toNat % 4 = 0 ∧ (0 : BitVec 16).toNat % 4 = 0 := by decide

theorem meets_ConfigurationCommands :
    (40 : BitVec 16).toNat ≤ 40 ∧ 40 < (41 : BitVec 16).toNat ∧ (3 : BitVec 16).toNat ≤ 3 ∧ 3 < (4 : BitVec 16).toNat ∧
      (7 : BitVec 16).toNat ≤ 7 ∧ 7 < (8 : BitVec 16).toNat := by decide

theorem meets_FieldTablesAndLaws : (255 : Byte) ≠ 0 ∧ glog (255 : Byte).toNat = .ok 175 := by decide

theorem meets_FieldExponentAndLogarithm :
    let s := regsOf [(1, 1), (2, 255), (3, 256)]
    1 ≤ (s.reg 1).toNat ∧ (s.reg 2).toNat ≤ 255 ∧ (s.reg 0).toNat = 0 ∧ 255 < (s.reg 3).toNat := by decide

theorem meets_FieldMultiply :
    let s := regsOf [(1, 1), (2, 255), (3, 256)]
    let ok := fun r : Reg => 1 ≤ (s.reg r).toNat ∧ (s.reg r).toNat ≤ 255
    ok 1 ∧ ok 2 ∧ ¬ ok 0 ∧ ¬ ok 3 := by decide

theorem meets_PolynomialRegisters :
    let s := (polysOf [(0, [1, 1, 6])]).setReg 1 2
    (s.poly 0)[(s.reg 1).toNat]? = some 6 ∧ (s.poly 1)[(s.reg 1).toNat]? = none := by decide

theorem meets_PolynomialPush :
    let s := ((polysOf [(0, List.replicate 256 1), (1, List.replicate 255 1)]).setReg 1 255).setReg 2 256
    (s.poly 0).length = 256 ∧ (s.poly 1).length ≠ 256 ∧ (s.reg 1).toNat ≤ 255 ∧ 255 < (s.reg 2).toNat := by
  decide +kernel

theorem meets_PolynomialNormalise :
    let s := polysOf [(0, [0, 0, 5, 7])]
    s.poly 1 = [] ∧ s.poly 0 = List.replicate 2 0 ++ [5, 7] ∧ ([5, 7] : List Byte).head? ≠ some 0 ∧ s.poly 0 ≠ [] ∧
      ([5, 7] : List Byte).length + (254 : BitVec 16).toNat ≤ 256 ∧
      256 < ([5, 7] : List Byte).length + (255 : BitVec 16).toNat := by decide

theorem meets_PolynomialProduct :
    let s := polysOf [(0, List.replicate 128 1), (1, List.replicate 129 1), (2, [1, 0])]
    s.poly 3 = [] ∧ s.poly 0 ≠ [] ∧ s.poly 1 ≠ [] ∧ 256 < (s.poly 1).length + (s.poly 1).length - 1 ∧
      (s.poly 0).length + (s.poly 1).length - 1 ≤ 256 ∧ (0 : Byte) ∈ s.poly 2 ∧
      (s.poly 0).length + (s.poly 2).length - 1 ≤ 256 ∧ (0 : Byte) ∉ s.poly 0 ∧ (0 : Byte) ∉ s.poly 1 := by
  decide +kernel

theorem meets_PolynomialRemainder :
    let s := polysOf [(0, [1, 3, 2]), (1, [1, 3]), (2, [0, 3]), (3, [])]
    s.poly 3 = [] ∧ s.poly 0 ≠ [] ∧ (s.poly 1).length < (s.poly 0).length ∧
      (s.poly 1).length ≤ (s.poly 2).length ∧ (s.poly 2).head? = some 0 ∧ (0 : Byte) ∈ s.poly 2 ∧
      (s.poly 0).length ≤ (s.poly 0).length ∧ (s.poly 0).head? ≠ some 0 ∧ (0 : Byte) ∉ s.poly 0 := by decide

theorem meets_GeneratorPolynomial :
    let s := regsOf [(1, 255), (2, 256)]
    (s.reg 1).toNat ≤ 255 ∧ 255 < (s.reg 2).toNat ∧ 254 < (s.reg 1).toNat := by decide

theorem meets_BitBufferWrites :
    let s := { State.reset with bb := List.replicate 23648 true }
    State.reset.bb.length + (16 : BitVec 5).toNat ≤ 23648 ∧ s.bb.length + (0 : BitVec 5).toNat ≤ 23648 ∧
      23648 < s.bb.length + (1 : BitVec 5).toNat ∧ s.bb.length + (0 : BitVec 16).toNat ≤ 23648 ∧
      23648 < s.bb.length + (32 : BitVec 16).toNat := by
  simp only [List.length_replicate]
  decide

theorem meets_BitBufferReads :
    let s := { regsOf [(1, 1), (2, 2), (3, 16)] with bb := List.replicate 16 true }
    s.bb[(s.reg 1).toNat]? = some true ∧ s.bb.length ≤ (s.reg 3).toNat ∧ 8 * (s.reg 1).toNat < s.bb.length ∧
      s.bb.length ≤ 8 * (s.reg 2).toNat := by decide

theorem meets_BitBufferFinal :
    capOf 1 0 * 8 = 152 ∧ State.reset.conf.ver = 0 ∧ (stage 1 .none 0 false).conf.ver ≠ 0 ∧
      152 < (List.replicate 153 true).length ∧ (List.replicate 152 true).length ≤ 152 := by decide +kernel

theorem meets_HostIsDarkReadsTheCell :
    let s := stage 1 .empty 21 false
    s.busy = false ∧ s.error.err = false ∧ s.overrun = none ∧ s.outside.rstN = true ∧ s.mx.mstate ≠ .none ∧
      (0 : Int) ≤ 20 ∧ (20 : Int) < s.side ∧ ¬ (21 : Int) < s.side ∧ ¬ (0 : Int) ≤ -1 := by decide

theorem meets_TableQuery :
    let s := regsOf [(1, 1), (2, 40), (3, 41)]
    ¬ (1 ≤ (s.reg 0).toNat ∧ (s.reg 0).toNat ≤ 40) ∧ ¬ (1 ≤ (s.reg 3).toNat ∧ (s.reg 3).toNat ≤ 40) ∧
      (1 ≤ (s.reg 1).toNat ∧ (s.reg 1).toNat ≤ 40) ∧ (1 ≤ (s.reg 2).toNat ∧ (s.reg 2).toNat ≤ 40) ∧
      (blockRow 1 0)[(0 : Byte).toNat]? = some ⟨1, 26, 19⟩ ∧ (blockRow 1 0)[(1 : Byte).toNat]? = none ∧
      (alignPos 40)[(6 : Byte).toNat]? = some 170 ∧ (alignPos 1)[(0 : Byte).toNat]? = none := by decide

theorem meets_ReedSolomonCodewords :
    (List.replicate 152 true).length = capOf 1 0 * 8 ∧ (List.replicate 10208 true).length = capOf 40 3 * 8 := by
  simp only [List.length_replicate]
  decide +kernel

theorem meets_RsEncode :
    let s := isoState (isoBytes.flatMap fun b => msbFirst b.toNat 8)
    State.reset.conf.ver = 0 ∧ s.conf.ver ≠ 0 ∧ (isoState isoBits).bb.length ≠ capOf 1 1 * 8 ∧ s.MemOk ∧
      s.conf.ver.toNat ≤ 40 ∧ s.bb.length = capOf 1 1 * 8 :=
  ⟨rfl, by decide, by decide +kernel, rfl, by decide, by decide +kernel⟩

theorem meets_GuardedReads :
    let s := { (stage 1 .empty 21 true).setReg 1 21 with cw := { cells := [], len := 21, ready := true } }
    State.reset.cw.ready = false ∧ s.cw.ready = true ∧ s.cw.len.toNat ≤ (s.reg 1).toNat ∧
      (s.reg 0).toNat < s.cw.len.toNat ∧ State.reset.mx.mstate = .none ∧ s.mx.mstate ≠ .none ∧
      s.side ≤ (s.reg 1).toNat ∧ (s.reg 0).toNat < s.side := by decide

theorem meets_BchCommands :
    let s := regsOf [(1, 31), (2, 32), (3, 63), (4, 64)]
    (s.reg 1).toNat ≤ 31 ∧ 31 < (s.reg 2).toNat ∧ (s.reg 3).toNat ≤ 63 ∧ 63 < (s.reg 4).toNat := by decide

theorem meets_MatrixInit :
    State.reset.conf.ver = 0 ∧ (stage 1 .none 0 false).MemOk ∧ (stage 1 .none 0 false).conf.ver ≠ 0 ∧
      (stage 40 .none 0 false).MemOk ∧ (stage 40 .none 0 false).conf.ver.toNat ≤ 40 :=
  ⟨rfl, rfl, by decide, rfl, by decide⟩

theorem meets_FinderPatterns :
    State.reset.mx.mstate ≠ .empty ∧ (stage 1 .empty 21 false).MemOk ∧ 21 ≤ (stage 1 .empty 21 false).side ∧
      (stage 1 .empty 21 false).mx.mstate = .empty := ⟨by decide, rfl, by decide, rfl⟩

theorem meets_AlignmentPatterns :
    let s := stage 2 .probes 25 false
    State.reset.mx.mstate ≠ .probes ∧ s.MemOk ∧ s.mx.mstate = .probes ∧ (18 ∈ alignPos 2 ∧ cell s 18 18 = .unset ∧
      distance 20 18 ≤ 2) ∧ 8 ∉ alignPos 2 := ⟨by decide, rfl, rfl, by decide, by decide⟩

theorem meets_TimingPatterns :
    let s := stage 1 .align 21 false
    State.reset.mx.mstate ≠ .align ∧ s.MemOk ∧ s.mx.mstate = .align ∧ cell s 6 20 = .unset ∧ 20 < s.side :=
  ⟨by decide, rfl, rfl, by decide, by decide⟩

theorem meets_FormatInformation :
    let s := stage 1 .timing 21 false
    State.reset.mx.mstate ≠ .timing ∧ s.MemOk ∧ 21 ≤ s.side ∧ s.mx.mstate = .timing ∧ cell s 0 8 = .unset ∧
      cell s 8 20 = .unset ∧ cell s 13 8 = .unset := ⟨by decide, rfl, by decide, rfl, by decide, by decide, by decide⟩

theorem meets_VersionInformation :
    let s := stage 7 .typeinfo 45 false
    State.reset.mx.mstate ≠ .typeinfo ∧ s.MemOk ∧ 21 ≤ s.side ∧ s.mx.mstate = .typeinfo ∧ 7 ≤ s.conf.ver.toNat ∧
      cell s 0 34 = .unset ∧ cell s 34 0 = .unset ∧ (stage 6 .typeinfo 41 false).conf.ver.toNat < 7 :=
  ⟨by decide, rfl, by decide, rfl, by decide, by decide, by decide, by decide⟩

/-- An empty matrix at a build state is a sound state. -/
theorem stage_shaped (m : MState) (hm : m ≠ .none) (r : Bool) : (stage 1 m 21 r).Shaped where
  polys := (show ∀ p : PReg, (State.reset.poly p).length ≤ 256 by decide)
  ver := (show (1 : BitVec 6).toNat ≤ 40 by decide)
  buffer := Nat.zero_le _
  cwLen := Nat.zero_le _
  cwm := rfl
  mat := rfl
  noMatrix := fun h => absurd h hm
  matrix := fun _ => ⟨(show (1 : BitVec 6) ≠ 0 by decide), rfl⟩

theorem meets_MappingWalk : 1 ≤ 1 ∧ 1 ≤ 40 ∧ 40 ≤ 40 := by decide

theorem meets_DataMapping :
    let s := stage 1 .typeinfo 21 true
    State.reset.cw.ready = false ∧ s.MemOk ∧ s.Shaped ∧ s.mx.mstate = .typeinfo ∧ s.conf.ver.toNat < 7 ∧
      (stage 1 .typenum 21 true).mx.mstate = .typenum ∧ s.cw.ready = true ∧ (20, 20) ∈ snake 21 ∧ cell s 20 20 = .unset ∧
      (0, 6) ∉ snake 21 :=
  ⟨rfl, rfl, stage_shaped _ (by decide) _, rfl, by decide, rfl, rfl, by decide +kernel, by decide, by decide +kernel⟩

theorem meets_MaskFunctionsAndQuery :
    let s := regsOf [(1, 176), (2, 177)]
    (s.reg 1).toNat ≤ 176 ∧ 176 < (s.reg 2).toNat := by decide

theorem meets_PenaltyScore :
    State.reset.mx.mstate ≠ .mapped ∧ State.reset.mx.mstate ≠ .scored ∧ (stage 40 .mapped 177 true).side ≤ 177 ∧
      (stage 40 .mapped 177 true).mx.mstate = .mapped ∧ (stage 1 .scored 21 true).mx.mstate = .scored := by decide

/-- For BuildResolvesEveryModule, BuildIsTheSevenCommands, RealBuildCarriesItsInformation and MaskSelection. -/
theorem meets_Builds :
    let s := stage 40 .none 0 true
    State.reset.conf.ver = 0 ∧ (stage 1 .none 0 false).conf.ver ≠ 0 ∧ (stage 1 .none 0 false).cw.ready = false ∧
      s.MemOk ∧ s.conf.ver ≠ 0 ∧ s.conf.ver.toNat ≤ 40 ∧ s.cw.ready = true ∧
      exec (.mBuild false) s = .next (after (.mBuild false) s) :=
  ⟨rfl, by decide, rfl, rfl, by decide, by decide, rfl, rfl⟩

theorem meets_HaltedUntilReset :
    halted.Halted ∧ halted.busy = false ∧ halted.outside.turns = [] ∧
      NextTurn (turned [.read 0x00B] halted) (.read 0x00B) [] ∧ ¬ IsReset (turned [.read 0x00B] halted) (.read 0x00B) ∧
      Selects (turned [.read 0x00B] halted) 0x00B 0x008 ∧ ¬ IsReset halted (.write 0x104 2) :=
  ⟨rfl, rfl, rfl, rfl, id, ⟨0x00B, by decide, rfl, rfl⟩, fun h => absurd h.2 (by decide)⟩

theorem meets_CommandOverrun :
    let s := turned [.write 0x100 7, .block] busyNop
    NextTurn s (.write 0x100 7) [.block] ∧ Selects s 0x100 0x100 ∧ s.outside.rstN = true ∧ s.busy = true ∧
      s.error.err = false ∧ s.overrun = none ∧ (after .nop busyNop).error.err = false ∧
      (busyNop.raised illegalCommand).error.err = true :=
  ⟨rfl, ⟨0x100, by decide, rfl, rfl⟩, rfl, rfl, rfl, rfl, rfl, rfl⟩

theorem meets_ResetState :
    let s := turned [.write 0x107 1] halted
    NextTurn s (.write 0x107 1) [] ∧ IsReset s (.write 0x107 1) ∧ s.outside.rstN = true ∧
      IsReset s (.rstN false) := ⟨rfl, ⟨⟨0x107, by decide, rfl, rfl⟩, by decide⟩, rfl, rfl⟩

theorem meets_SoftReset :
    let s := turned [.write 0x104 1] halted
    NextTurn s (.write 0x104 1) [] ∧ Selects s 0x104 0x104 ∧ s.outside.rstN = true ∧ s.Halted ∧ s.busy = false ∧
      step s = .next (stepped s) ∧ ¬ (stepped s).Halted :=
  ⟨rfl, ⟨0x104, by decide, rfl, rfl⟩, rfl, rfl, rfl, rfl, by unfold State.Halted; decide⟩

theorem meets_HardwareReset :
    let held := { State.reset with outside := { State.reset.outside with rstN := false } }
    NextTurn (turned [.rstN false] busyNop) (.rstN false) [] ∧ held.outside.rstN = false ∧
      held = State.resetOf held.inst held.outside ∧
      NextTurn (turned [.rstN true, .write 0x100 7] held) (.rstN true) [.write 0x100 7] ∧ Selects held 0x100 0x100 ∧
      NextTurn (turned [.read 0x004] held) (.read 0x004) [] :=
  ⟨rfl, rfl, rfl, rfl, ⟨0x100, by decide, rfl, rfl⟩, rfl⟩

theorem meets_DutifulHostSeesNoOverrun :
    let s := turned (hostTurns 0 [.nop, .mInit]) State.reset
    s.busy = false ∧ s.outside.rstN = true ∧ s.overrun = none ∧ s.error.code ≠ .cmdOverrun ∧
      s.outside.turns = hostTurns s.inst.blockBase [.nop, .mInit] := ⟨rfl, rfl, rfl, by decide, rfl⟩

theorem reset_shaped : State.reset.Shaped where
  polys := fun p => by revert p; decide
  ver := by decide
  buffer := by decide
  cwLen := by decide
  cwm := rfl
  mat := rfl
  noMatrix := fun _ => rfl
  matrix := fun h => absurd rfl h

theorem meets_UnspecifiedContentsAreUnobservable :
    let s' := { State.reset with cw := { State.reset.cw with cells := [(0, 5)] } }
    State.reset.MemOk ∧ s'.MemOk ∧ State.reset.Shaped ∧ Agree State.reset s' ∧
      step State.reset = .next (stepped State.reset) :=
  ⟨rfl, rfl, reset_shaped, ⟨rfl, fun h => absurd h (by decide), fun h => absurd rfl h⟩, rfl⟩

/-- For ResetIsSound, StepKeepsMemOk and StepKeepsShaped, at reset and with a matrix. -/
theorem meets_StepKeeps :
    State.reset.MemOk ∧ State.reset.Shaped ∧ State.reset.StreamOk ∧ State.reset.BuildOk ∧
      (stage 1 .empty 21 false).MemOk ∧ (stage 1 .empty 21 false).Shaped ∧
      step State.reset = .next (stepped State.reset) := by
  refine ⟨rfl, reset_shaped, fun h => (by cases h), ⟨fun h => ?_, fun h => ?_⟩, rfl, stage_shaped _ (by decide) _, rfl⟩
  · rcases h with h | h | h | h | h <;> cases h
  · rcases h with h | h <;> cases h

/-- An idle block with no turn to come keeps its state. -/
theorem idle_step {s : State} (ht : s.outside.turns = []) (hb : s.busy = false) : step s = .next s := by
  unfold step
  rw [ht]
  exact blockTurn_idle hb

/-- The state after RS_ENCODE of the ISO example: a ready stream. -/
def isoReady : State := after .rsEncode (isoState (isoBytes.flatMap fun b => msbFirst b.toNat 8))

theorem isoReady_facts :
    ((∀ p : PReg, (isoReady.poly p).length ≤ 256) ∧ isoReady.bb.length ≤ 23648 ∧ isoReady.cw.len.toNat ≤ 3706 ∧
      Memory.below 3706 isoReady.cw.cells = true ∧ gridBelow 177 isoReady.mx.cells = true) ∧
    (isoReady.mx.mstate = .none ∧ isoReady.mx.side = 0 ∧ isoReady.memWf = true ∧ isoReady.outside.turns = [] ∧
      isoReady.busy = false) ∧
    isoReady.cw.ready = true ∧ isoReady.conf.ver = 1 ∧ isoReady.bb.length = isoReady.cap * 8 ∧
      isoReady.cw.len.toNat = totalOf isoReady.conf.ver.toNat ∧
      codewordsOf isoReady.conf.ver.toNat isoReady.conf.ecl.toNat isoReady.bb = .ok isoReady.stream := by
  decide +kernel

theorem meets_StepKeepsStreamOk :
    isoReady.cw.ready = true ∧ isoReady.MemOk ∧ isoReady.Shaped ∧ isoReady.StreamOk ∧
      step isoReady = .next isoReady := by
  obtain ⟨⟨hp, hb, hl, hc, hg⟩, ⟨hn, hs, hm, ht, hi⟩, hr, hv, rest⟩ := isoReady_facts
  refine ⟨hr, hm, ⟨hp, by rw [hv]; decide, hb, hl, hc, hg, fun _ => hs, fun h => absurd hn h⟩,
    fun _ => ⟨by rw [hv]; decide, rest⟩, idle_step ht hi⟩

/-- The matrix of a real build at version 1 of an empty stream. -/
def builtOne : State := after (.mBuild false) (stage 1 .none 0 true)

theorem builtOne_facts :
    builtOne.side = 21 ∧ builtOne.mx.mstate = .mapped ∧ builtOne.memWf = true ∧ builtOne.outside.turns = [] ∧
      builtOne.busy = false ∧ ∀ r : Fin 21, ∀ c : Fin 21, gridGet builtOne.mx.cells r.val c.val ≠ .unset := by
  decide +kernel

theorem meets_StepKeepsBuildOk :
    builtOne.mx.mstate = .mapped ∧ builtOne.MemOk ∧ builtOne.BuildOk ∧ step builtOne = .next builtOne := by
  obtain ⟨hs, hm, hw, ht, hb, h⟩ := builtOne_facts
  refine ⟨hm, hw, ⟨fun _ k hk => ?_, fun _ r c hr hc => ?_⟩, idle_step ht hb⟩
  · rw [hs] at hk
    exact ⟨h ⟨k, hk⟩ 6, h 6 ⟨k, hk⟩⟩
  · rw [hs] at hr hc
    exact h ⟨r, hr⟩ ⟨c, hc⟩

theorem meets_StepKeepsControlOk : State.reset.ControlOk where
  noError := fun _ => rfl
  halted := fun h => absurd h (by decide)
  refused := fun h => absurd rfl h
  held := fun h => absurd h (by decide)

/-! ### Runs (R372) -/

/-- A NOP, its turn, and the STATUS read that shows BUSY = 0: a run, and it ends there. -/
theorem test_endedRun :
    let p : Config.Params := { n4Mode := .exact, blockBase := 0 }
    let xs : List Turn := [.write 0x100 0, .block, .read 0x004]
    EndedRun p xs (runTurns xs (runStart p) .noCommand).1 where
  uncut := by decide
  result := by decide
  last := by decide

/-- Without the STATUS read, or with one that shows BUSY = 1, or with no command, nothing has ended. -/
theorem test_notEndedRun :
    let s := runStart { n4Mode := .exact, blockBase := 0 }
    (runTurns [.write 0x100 0, .block] s .noCommand).2 = .waiting ∧ (runTurns [.read 0x004] s .noCommand).2 = .noCommand ∧
      (runTurns [] s .noCommand).2 = .noCommand := by decide

end Sys2Proof.Tests
end

/-! # What a completing command does

`Completion s i s'` says once, for every command, what its writes to a state can be; `exec_ends` says that a command
either completes with such writes or raises an error that the block may record. -/

namespace Sys2Proof.Machine

open Sys2Proof.Claims

/-! ### The writes of each command -/

/-- The writes of a completing command: `Completion s i s'` says that i, run at s, writes what makes s' of s. The
commands that write one register only are one case, and so are those that write one polynomial register only. -/
inductive Completion (s : State) : Instr → State → Prop
  | nop : Completion s .nop s
  | reg {i : Instr} (rd : Reg) (v : Word) (required : Required i s) (after : ∀ m, StateAfter i m = m) :
    Completion s i (s.setReg rd v)
  | poly {i : Instr} (pd : PReg) (q : List Byte)
    (bounded : (∀ p, (s.poly p).length ≤ Config.pMax) → q.length ≤ Config.pMax) (required : Required i s)
    (after : ∀ m, StateAfter i m = m) : Completion s i (s.setPoly pd q)
  | setver {imm : BitVec 16} (range : immNat imm ≤ 40) :
    Completion s (.setver imm)
      { s with conf := { s.conf with ver := BitVec.ofNat 6 (immNat imm) } }.dropMatrix.invalidateStream
  | setecl {imm : BitVec 16} (range : immNat imm ≤ 3) :
    Completion s (.setecl imm)
      { s with conf := { s.conf with ecl := BitVec.ofNat 2 (immNat imm) } }.dropMatrix.invalidateStream
  | setmask {imm : BitVec 16} (range : immNat imm ≤ 7) :
    Completion s (.setmask imm) { s with conf := { s.conf with mask := BitVec.ofNat 3 (immNat imm) } }.dropMatrix
  | bbClr : Completion s .bbClr (s.setBuffer [])
  | bbPut {n : BitVec 5} {imm : BitVec 16} (room : s.bb.length + n.toNat ≤ Config.bbMaxBits) :
    Completion s (.bbPut n imm) (s.setBuffer (s.bb ++ putBits (immNat imm) n.toNat))
  | bbPutr {ra : Reg} {n : BitVec 16} (room : s.bb.length + immNat n ≤ Config.bbMaxBits) :
    Completion s (.bbPutr ra n) (s.setBuffer (s.bb ++ putBits (s.uintReg ra) (immNat n)))
  | bbFinal (ver : s.conf.ver ≠ 0) (room : s.bb.length ≤ s.cap * 8) :
    Completion s .bbFinal (s.setBuffer (fillPads (s.cap * 8) (padToByte (addTerminator (s.cap * 8) s.bb))))
  | rsEncode (S : List Byte) (ver : s.conf.ver ≠ 0) (full : s.bb.length = s.cap * 8)
    (codewords : codewordsOf s.conf.ver.toNat s.conf.ecl.toNat s.bb = .ok S) : Completion s .rsEncode (s.setStream S)
  | mInit (ver : s.conf.ver ≠ 0) :
    Completion s .mInit
      { s with
        mx :=
          { cells := gridClear (sideOf s.conf.ver.toNat) s.mx.cells
            side := BitVec.ofNat 8 (sideOf s.conf.ver.toNat)
            mstate := .empty
            mtest := false } }
  | mProbes {g : Grid} (required : s.mx.mstate = .empty) (cells : g = placeProbes s.side s.mx.cells) :
    Completion s .mProbes (s.setGrid g .probes)
  | mAlign {g : Grid} (required : s.mx.mstate = .probes) (cells : g = placeAlign s.conf.ver.toNat s.mx.cells) :
    Completion s .mAlign (s.setGrid g .align)
  | mTiming {g : Grid} (required : s.mx.mstate = .align) (cells : g = placeTiming s.side s.mx.cells) :
    Completion s .mTiming (s.setGrid g .timing)
  | mTypeinfo {t : Bool} {g : Grid} (required : s.mx.mstate = .timing)
    (cells : g = placeTypeInfo s.side (formatOf s) t s.mx.cells) :
    Completion s (.mTypeinfo t) ((s.setGrid g .typeinfo).markTest t)
  | mTypenum {t : Bool} {g : Grid} (required : s.mx.mstate = .typeinfo)
    (cells : g = placeTypeNum s.conf.ver.toNat s.side t s.mx.cells) :
    Completion s (.mTypenum t) ((s.setGrid g .typenum).markTest t)
  | mMap {g : Grid} (required : Required .mMap s) (ready : s.cw.ready = true)
    (cells : g = mapData s.side s.conf.mask.toNat s.stream s.mx.cells) : Completion s .mMap (s.setGrid g .mapped)
  | mScore (required : Required .mScore s) :
    Completion s .mScore
      { s with score := scoreOf s.inst.n4Mode s.side s.mx.cells, mx := { s.mx with mstate := .scored } }
  | mBuild {t : Bool} (ver : s.conf.ver ≠ 0) (ready : s.cw.ready = true) :
    Completion s (.mBuild t) { s with mx := s.buildMatrix t s.conf.mask.toNat }
  | mSelect {trials : List ScoreRegs} (ver : s.conf.ver ≠ 0) (ready : s.cw.ready = true)
    (eight : trials = (List.range 8).map s.trial) : Completion s .mSelect (s.selected trials)

/-! ### Checked computations -/

/-- A checked computation yields values that satisfy `P`, and any error it raises is one the block writes. -/
def Yields {α : Type} (P : α → Prop) : Except CmdError α → Prop
  | .ok a => P a
  | .error e => e.code.raisable

section
variable {α β : Type} {P : α → Prop} {Q : β → Prop}

theorem Yields.mono {P' : α → Prop} {r : Except CmdError α} (hr : Yields P r) (h : ∀ a, P a → P' a) :
    Yields P' r := by
  cases r with
  | ok a => exact h a hr
  | error e => exact hr

theorem Yields.raiseIf {bad : Prop} [Decidable bad] {e : CmdError} {k : Except CmdError α}
    (hk : ¬ bad → Yields P k) (he : e.code.raisable := by exact ⟨nofun, nofun, nofun⟩) :
    Yields P (raiseIf bad e k) := by
  by_cases h : bad
  · rw [raiseIf_pos h]; exact he
  · rw [raiseIf_neg h]; exact hk h

theorem Yields.bind {m : Except CmdError α} {f : α → Except CmdError β} (hm : Yields P m)
    (hf : ∀ a, m = .ok a → P a → Yields Q (f a)) : Yields Q (m >>= f) := by
  cases m with
  | ok a => exact hf a rfl hm
  | error e => exact hm

theorem Yields.needVer {s : State} {k : Except CmdError α} (hk : s.conf.ver ≠ 0 → Yields P k) :
    Yields P (s.needVer k) :=
  .raiseIf hk

theorem Yields.needMState {s : State} {ok : Prop} [Decidable ok] {k : Except CmdError α} (hk : ok → Yields P k) :
    Yields P (s.needMState ok k) :=
  .raiseIf fun h => hk (Classical.not_not.mp h)

theorem Yields.needStream {s : State} {k : Except CmdError α} (hk : s.cw.ready = true → Yields P k) :
    Yields P (s.needStream k) :=
  .raiseIf fun h => hk (by simpa using h)

end

/-! ### The field and the polynomials -/

theorem glog_yields (n : Nat) : Yields (fun _ => True) (glog n) := .raiseIf fun _ => trivial

theorem gfProduct_yields (a b : Nat) : Yields (fun _ => True) (gfProduct a b) :=
  .bind (glog_yields a) fun _ _ _ => .bind (glog_yields b) fun _ _ _ => trivial

theorem polyPush_yields (q : List Byte) (c : Byte) :
    Yields (fun r => q.length ≤ Config.pMax → r.length ≤ Config.pMax) (polyPush q c) :=
  .raiseIf fun h hq => by
    rw [List.length_append, List.length_singleton]
    omega

theorem polyNew_yields (num : List Byte) (shift : Nat) :
    Yields (fun r => r.length ≤ Config.pMax) (polyNew num shift) :=
  .raiseIf fun _ => .raiseIf fun h => Nat.not_lt.mp h

theorem mulRow_yields (x : Byte) (b : List Byte) (k : Nat) (r : List Byte) :
    Yields (fun _ => True) (mulRow x b k r) := by
  induction b generalizing k r with
  | nil => trivial
  | cons y ys ih => exact .bind (gfProduct_yields _ _) fun _ _ _ => ih _ _

theorem mulRows_yields (b a : List Byte) (k : Nat) (r : List Byte) : Yields (fun _ => True) (mulRows b a k r) := by
  induction a generalizing k r with
  | nil => trivial
  | cons x xs ih => exact .bind (mulRow_yields x b k r) fun _ _ _ => ih _ _

theorem polyMul_yields (a b : List Byte) : Yields (fun r => r.length ≤ Config.pMax) (polyMul a b) :=
  .raiseIf fun _ => .raiseIf fun _ => .bind (mulRows_yields b a 0 _) fun _ _ _ => polyNew_yields _ _

/-- The scaled subtraction keeps the dividend's length, or empties a dividend shorter than the divisor. -/
theorem subScaled_yields (ratio : Int) (num b : List Byte) :
    Yields (fun r => r.length ≤ num.length) (subScaled ratio num b) := by
  induction num, b using subScaled.induct with
  | case1 num => unfold subScaled; exact Nat.le_refl num.length
  | case2 y b => exact Nat.le_refl 0
  | case3 c num y b ih =>
    exact .bind (glog_yields _) fun _ _ _ => .bind ih fun _ _ h => Nat.succ_le_succ h

theorem strip_length_le (q : List Byte) : (strip q).length ≤ q.length := (List.dropWhile_suffix _).length_le

theorem modLoop_yields (b : List Byte) (fuel : Nat) (a : List Byte) :
    Yields (fun r => r.length ≤ a.length) (modLoop b fuel a) := by
  induction fuel generalizing a with
  | zero => exact Nat.le_refl a.length
  | succ fuel ih =>
    unfold modLoop
    split
    · exact Nat.le_refl a.length
    · refine .bind (glog_yields _) fun _ _ _ => .bind (glog_yields _) fun _ _ _ =>
        .bind (subScaled_yields _ a b) fun num _ hnum => ?_
      exact (ih (strip num)).mono fun r hr => (hr.trans (strip_length_le num)).trans hnum

theorem polyMod_yields (a b : List Byte) : Yields (fun r => r.length ≤ a.length) (polyMod a b) :=
  .raiseIf fun _ => modLoop_yields b a.length a

theorem genLoop_yields (n : Nat) : Yields (fun r => r.length ≤ Config.pMax) (genLoop n) := by
  induction n with
  | zero => exact (by decide : 1 ≤ Config.pMax)
  | succ n ih => exact .bind ih fun _ _ _ => polyMul_yields _ _

theorem polyGen_yields (n : Nat) : Yields (fun r => r.length ≤ Config.pMax) (polyGen n) :=
  .raiseIf fun _ => genLoop_yields n

/-! ### The bit buffer and the blocks -/

theorem bbPut_yields (bb : List Bool) (v n : Nat) :
    Yields (fun r => bb.length + n ≤ Config.bbMaxBits ∧ r = bb ++ putBits v n) (bbPut bb v n) :=
  .raiseIf fun h => ⟨Nat.not_lt.mp h, rfl⟩

theorem bbFinish_yields (c : Nat) (bb : List Bool) :
    Yields (fun r => bb.length ≤ c ∧ r = fillPads c (padToByte (addTerminator c bb))) (bbFinish c bb) :=
  .raiseIf fun h => ⟨Nat.not_lt.mp h, rfl⟩

theorem groupField_yields (row : List BlockGroup) (k : Nat) (f : BlockGroup → Nat) :
    Yields (fun _ => True) (groupField row k f) :=
  .raiseIf fun _ => trivial

theorem tblValue_yields (v e sel k : Nat) : Yields (fun _ => True) (tblValue v e sel k) := by
  unfold tblValue
  split
  case h_6 | h_7 | h_8 => exact groupField_yields _ _ _
  case h_10 => exact .raiseIf fun _ => trivial
  case h_13 => exact ⟨nofun, nofun, nofun⟩
  all_goals trivial

theorem rightJustify_length (n : Nat) (rem : List Byte) : (rightJustify n rem).length = n := by
  simp [rightJustify]

theorem ecWords_yields (d : List Byte) (n : Nat) : Yields (fun e => e.length = n) (ecWords d n) :=
  .bind (polyNew_yields d n) fun _ _ _ => .bind (polyGen_yields n) fun _ _ _ =>
    .bind (polyMod_yields _ _) fun rem _ _ => rightJustify_length n rem

theorem ecAll_yields (n : Nat) (ds : List (List Byte)) :
    Yields (fun es => es.length = ds.length ∧ ∀ e ∈ es, e.length = n) (ecAll n ds) := by
  induction ds with
  | nil => exact ⟨rfl, nofun⟩
  | cons d ds ih =>
    exact .bind (ecWords_yields d n) fun e _ he => .bind ih fun es _ ⟨hlen, hes⟩ =>
      ⟨congrArg (· + 1) hlen, List.forall_mem_cons.mpr ⟨he, hes⟩⟩

/-! ### The length of the codeword stream -/

theorem blocksOf_sum (v e : Nat) (f : BlockGroup → Nat) :
    ((blocksOf v e).map f).sum = ((blockRow v e).map fun g => g.count * f g).sum := by
  unfold blocksOf
  induction blockRow v e with
  | nil => rfl
  | cons g gs ih => simp [ih]

@[simp] theorem bytesOf_length (n : Nat) (bb : List Bool) : (bytesOf n bb).length = n := by
  simp [bytesOf_eq_map]

theorem splitData_lengths (bs : List BlockGroup) (d : List Byte) (h : (bs.map (·.data)).sum ≤ d.length) :
    (splitData bs d).map List.length = bs.map (·.data) := by
  induction bs generalizing d with
  | nil => rfl
  | cons b bs ih =>
    simp only [List.map_cons, List.sum_cons] at h
    simp only [splitData, List.map_cons, List.length_take]
    rw [ih (d.drop b.data) (by rw [List.length_drop]; omega), Nat.min_eq_left (by omega)]

/-- The next column has one byte of each block that reaches it. -/
theorem column_length (m : Nat) (blocks : List (List Byte)) :
    (blocks.map fun b => min (m + 1) b.length).sum =
      (blocks.map fun b => min m b.length).sum + (blocks.filterMap fun b => b[m]?).length := by
  induction blocks with
  | nil => rfl
  | cons b bs ih =>
    by_cases h : m < b.length
    · simp only [List.map_cons, List.sum_cons, List.filterMap_cons, List.getElem?_eq_getElem h, List.length_cons, ih]
      omega
    · simp only [List.map_cons, List.sum_cons, List.filterMap_cons, List.getElem?_eq_none (Nat.not_lt.mp h), ih]
      omega

theorem columns_length (m : Nat) (blocks : List (List Byte)) :
    (columns m blocks).length = (blocks.map fun b => min m b.length).sum := by
  unfold columns
  induction m with
  | zero => simp
  | succ m ih => rw [List.range_succ, List.flatMap_append, List.length_append, ih, column_length]; simp

theorem le_foldl_max (l : List Nat) (a : Nat) : a ≤ l.foldl max a ∧ ∀ x ∈ l, x ≤ l.foldl max a := by
  induction l generalizing a with
  | nil => simp
  | cons y l ih =>
    obtain ⟨h1, h2⟩ := ih (max a y)
    refine ⟨(Nat.le_max_left a y).trans h1, fun x hx => ?_⟩
    rcases List.mem_cons.mp hx with rfl | hx
    · exact (Nat.le_max_right a x).trans h1
    · exact h2 x hx

/-- Interleaving keeps every codeword: the data of each block, and n error-correction codewords a block (R216). -/
theorem interleave_length (data ec : List (List Byte)) (n : Nat) (hec : ∀ e ∈ ec, e.length = n) :
    (interleave data ec n).length = (data.map List.length).sum + ec.length * n := by
  have hdata : data.map (fun b => min ((data.map List.length).foldl max 0) b.length) = data.map List.length :=
    List.map_congr_left fun b hb => Nat.min_eq_right ((le_foldl_max _ 0).2 _ (List.mem_map_of_mem hb))
  have hec' : ec.map (fun b => min n b.length) = List.replicate ec.length n :=
    List.map_eq_replicate_iff.mpr fun e he => by rw [hec e he, Nat.min_self]
  rw [interleave, List.length_append, columns_length, columns_length, hdata, hec', List.sum_replicate, smul_eq_mul]

theorem splitData_length (bs : List BlockGroup) (d : List Byte) : (splitData bs d).length = bs.length := by
  induction bs generalizing d with
  | nil => rfl
  | cons b bs ih => simp [splitData, ih]

/-- The rows of RSBLK (R210, R211): the codewords of a row are the version's total, whatever the level, and they and
the data capacity are within CWM and the bit buffer. -/
theorem blockRow_facts : ∀ v ≤ Config.maxVer, ∀ e < 4, v ≠ 0 →
    capOf v e + blockCount v e * ecOf v e = totalOf v ∧ totalOf v ≤ Config.cwmBytes ∧
      capOf v e * 8 ≤ Config.bbMaxBits := by
  decide +kernel

theorem blocksOf_length (v e : Nat) : (blocksOf v e).length = blockCount v e := by
  have h := blocksOf_sum v e fun _ => 1
  simp only [List.map_const', List.sum_replicate, smul_eq_mul, Nat.mul_one] at h
  exact h

/-- The stream of a row of RSBLK has the version's total of codewords (R210, R217). -/
theorem codewordsOf_yields (v e : Nat) (bb : List Bool) :
    Yields (fun S => v ≤ Config.maxVer → v ≠ 0 → e < 4 → S.length = totalOf v) (codewordsOf v e bb) := by
  have hcap : ((blocksOf v e).map (·.data)).sum = capOf v e := blocksOf_sum v e _
  have hsplit := splitData_lengths (blocksOf v e) (bytesOf (capOf v e) bb) (by rw [hcap, bytesOf_length])
  refine .bind (ecAll_yields _ _) fun ec _ ⟨hlen, hec⟩ hv hv0 he => ?_
  rw [interleave_length _ _ _ hec, hsplit, hcap, hlen, splitData_length, blocksOf_length]
  exact (blockRow_facts v hv e he hv0).1

theorem codewordsOf_length {v e : Nat} {bb : List Bool} {S : List Byte} (h : codewordsOf v e bb = .ok S)
    (hv : v ≤ Config.maxVer) (hv0 : v ≠ 0) (he : e < 4) : S.length = totalOf v := by
  have hy := codewordsOf_yields v e bb
  rw [h] at hy
  exact hy hv hv0 he

/-! ### How each command ends -/

/-- A command of s ends in this outcome: it completes with writes that satisfy `P`, or it raises an error of R330
that the block may record (R63, R333). -/
def Ends (s : State) (P : State → Prop) (o : Outcome) : Prop :=
  (∃ s', P s' ∧ o = .next s'.complete) ∨ ∃ e : CmdError, e.code.raisable ∧ o = .next (s.raised e)

theorem Yields.ends {s : State} {P : State → Prop} {r : Effect} (h : Yields P r) : Ends s P (s.finish r) := by
  cases r with
  | ok s' => exact .inl ⟨s', h, rfl⟩
  | error e => exact .inr ⟨e, h, rfl⟩

/-- A command that only writes one register, and checks nothing, completes. -/
theorem ends_reg {s : State} {i : Instr} (rd : Reg) (v : Word)
    (hexec : exec i s = s.finish (.ok (s.setReg rd v))) (required : Required i s)
    (after : ∀ m, StateAfter i m = m) : Ends s (Completion s i) (exec i s) :=
  .inl ⟨_, .reg rd v required after, hexec⟩

/-- Every command completes with the writes of `Completion`, or raises. -/
theorem exec_ends (i : Instr) (s : State) : Ends s (Completion s i) (exec i s) := by
  cases i with
  | nop => exact Yields.ends (r := .ok _) .nop
  | li rd imm | lui rd imm | gfExpi rd imm => exact ends_reg rd _ rfl trivial fun _ => rfl
  | add rd ra rb | sub rd ra rb | xor rd ra rb => exact ends_reg rd _ rfl trivial fun _ => rfl
  | rdsr rd off => exact ends_reg rd _ rfl trivial fun _ => rfl
  | gfExp rd _ => exact ends_reg rd _ rfl trivial fun _ => rfl
  | pLen rd pa => exact ends_reg rd _ rfl trivial fun _ => rfl
  | gfLog rd ra =>
    exact Yields.ends (.bind (glog_yields _) fun _ _ _ => Completion.reg rd _ trivial fun _ => rfl)
  | gfMul rd ra rb =>
    exact Yields.ends (.bind (gfProduct_yields _ _) fun _ _ _ => Completion.reg rd _ trivial fun _ => rfl)
  | pGet rd pa rb => exact Yields.ends (.raiseIf fun _ => Completion.reg rd _ trivial fun _ => rfl)
  | bbGetbit rd ra | bbGetbyte rd ra | bchFmt rd ra | bchVer rd ra =>
    exact Yields.ends (.raiseIf fun _ => Completion.reg rd _ trivial fun _ => rfl)
  | tblQ rd ra sel k =>
    exact Yields.ends (.raiseIf fun _ => .bind (tblValue_yields _ _ _ _) fun _ _ _ =>
      Completion.reg rd _ trivial fun _ => rfl)
  | cwRd rd ra =>
    exact Yields.ends (.needStream fun _ => .raiseIf fun _ => Completion.reg rd _ trivial fun _ => rfl)
  | mRead rd ra rb =>
    exact Yields.ends (.needMState fun h => .raiseIf fun _ => Completion.reg rd _ h fun _ => rfl)
  | maskq rd ra rb =>
    exact Yields.ends (.raiseIf fun _ => .raiseIf fun _ => Completion.reg rd _ trivial fun _ => rfl)
  | pClr pd => exact Yields.ends (r := .ok _) (.poly pd [] (fun _ => Nat.zero_le _) trivial fun _ => rfl)
  | pCopy pd pa => exact Yields.ends (r := .ok _) (.poly pd _ (fun h => h pa) trivial fun _ => rfl)
  | pPushi pd imm =>
    exact Yields.ends (.bind (polyPush_yields _ _) fun q _ hq =>
      .poly pd q (fun h => hq (h pd)) trivial fun _ => rfl)
  | pPush pd ra =>
    exact Yields.ends (.raiseIf fun _ => .bind (polyPush_yields _ _) fun q _ hq =>
      .poly pd q (fun h => hq (h pd)) trivial fun _ => rfl)
  | pNorm pd shift =>
    exact Yields.ends (.bind (polyNew_yields _ _) fun q _ hq => .poly pd q (fun _ => hq) trivial fun _ => rfl)
  | pMul pd pa pb =>
    exact Yields.ends (.bind (polyMul_yields _ _) fun q _ hq => .poly pd q (fun _ => hq) trivial fun _ => rfl)
  | pMod pd pa pb =>
    exact Yields.ends (.bind (polyMod_yields _ _) fun q _ hq =>
      .poly pd q (fun h => hq.trans (h pa)) trivial fun _ => rfl)
  | pGen pd ra =>
    exact Yields.ends (.bind (polyGen_yields _) fun q _ hq => .poly pd q (fun _ => hq) trivial fun _ => rfl)
  | setver imm => exact Yields.ends (.raiseIf fun h => .setver (Nat.not_lt.mp h))
  | setecl imm => exact Yields.ends (.raiseIf fun h => .setecl (Nat.not_lt.mp h))
  | setmask imm => exact Yields.ends (.raiseIf fun h => .setmask (Nat.not_lt.mp h))
  | bbClr => exact Yields.ends (r := .ok _) .bbClr
  | bbPut n imm => exact Yields.ends (.bind (bbPut_yields _ _ _) fun _ _ h => h.2 ▸ .bbPut h.1)
  | bbPutr ra n => exact Yields.ends (.bind (bbPut_yields _ _ _) fun _ _ h => h.2 ▸ .bbPutr h.1)
  | bbFinal => exact Yields.ends (.needVer fun hv => .bind (bbFinish_yields _ _) fun _ _ h => h.2 ▸ .bbFinal hv h.1)
  | rsEncode =>
    exact Yields.ends (.needVer fun hv => .raiseIf fun hb => .bind (codewordsOf_yields _ _ _) fun S hS _ =>
      .rsEncode S hv (Classical.not_not.mp hb) hS)
  | mInit => exact Yields.ends (.needVer fun hv => .mInit hv)
  | mProbes => exact Yields.ends (.needMState fun h => .mProbes h rfl)
  | mAlign => exact Yields.ends (.needMState fun h => .mAlign h rfl)
  | mTiming => exact Yields.ends (.needMState fun h => .mTiming h rfl)
  | mTypeinfo t => exact Yields.ends (.needMState fun h => .mTypeinfo h rfl)
  | mTypenum t => exact Yields.ends (.needMState fun h => .mTypenum h rfl)
  | mMap => exact Yields.ends (.needMState fun h => .needStream fun hr => .mMap h hr rfl)
  | mScore => exact Yields.ends (.needMState fun h => .mScore h)
  | mBuild t => exact Yields.ends (.needVer fun hv => .needStream fun hr => .mBuild hv hr)
  | mSelect => exact Yields.ends (.needVer fun hv => .needStream fun hr => .mSelect hv hr rfl)

/-! ### What a step can do -/

/-- A host write does nothing, or writes CMD while RST_N = 1, or is the soft reset (R61, R362). -/
theorem State.busWrite_cases (s : State) (addr : Nat) (w : Word) :
    s.busWrite addr w = s ∨ (s.outside.rstN = true ∧ s.busWrite addr w = s.writeCmd w) ∨
      s.busWrite addr w = s.resetBlock := by
  unfold State.busWrite
  split
  · exact .inl rfl
  · next hr =>
    split
    · exact .inl rfl
    · split
      · exact .inr (.inl ⟨Bool.eq_true_of_not_eq_false hr, rfl⟩)
      · split
        · unfold State.writeCtrl
          split
          · exact .inr (.inr rfl)
          · exact .inl rfl
        · exact .inl rfl

/-- The ways one turn takes a state to the next: the block idles, or its command completes or raises, or a turn of
the world outside is made (R20, R63, R337, R366). -/
inductive Turned (s : State) : State → Prop
  | idle (idle : s.busy = false) : Turned s s
  | completed {i : Instr} {s' : State} (busy : s.busy = true) (writes : Completion s i s') :
    Turned s s'.complete.settleOverrun
  | raised {e : CmdError} (busy : s.busy = true) (raisable : e.code.raisable) : Turned s (s.raised e).settleOverrun
  | written (addr : Nat) (w : Word) : Turned s (s.busWrite addr w)
  | read (addr : Nat) : Turned s (s.busRead addr)
  | pin (level : Bool) : Turned s (s.setRstN level)

theorem blockTurn_turned {s t : State} (h : blockTurn s = .next t) : Turned s t := by
  cases hb : s.busy with
  | false => exact next_inj ((blockTurn_idle hb).symm.trans h) ▸ .idle hb
  | true =>
    rw [blockTurn_busy hb] at h
    rcases runCommand_cases s with ⟨i, -, hr⟩ | ⟨e, -, hr⟩
    · rcases exec_ends i s with ⟨s', hc, he⟩ | ⟨e, hra, he⟩ <;> rw [hr, he] at h
      · exact next_inj h ▸ .completed hb hc
      · exact next_inj h ▸ .raised hb hra
    · exact next_inj (hr.symm.trans h) ▸ .raised hb ⟨nofun, nofun, nofun⟩

/-- A step is one turn, of the state or of the state less the turn being taken. -/
theorem step_turned {s t : State} (h : step s = .next t) : Turned s t ∨ Turned s.popTurn t := by
  unfold step at h
  split at h
  · exact .inl (blockTurn_turned h)
  · exact .inr (blockTurn_turned h)
  · exact .inr (next_inj h ▸ .written _ _)
  · exact .inr (next_inj h ▸ .read _)
  · exact .inr (next_inj h ▸ .pin _)

end Sys2Proof.Machine

/-! # The error record, BUSY, the refused word and the reset pin -/

namespace Sys2Proof.Machine

open Sys2Proof.Claims

/-! ### What a completing command leaves of the control state -/

section
variable {s s' : State} {i : Instr}

theorem Completion.error_eq (h : Completion s i s') : s'.error = s.error := by cases h <;> rfl
theorem Completion.outside_eq (h : Completion s i s') : s'.outside = s.outside := by cases h <;> rfl

end

/-! ### ControlOk -/

/-- While RST_N is released nothing is held, and three parts are to be shown. -/
theorem State.ControlOk.of_released {s : State} (released : s.outside.rstN = true)
    (noError : s.error.err = false → s.error = ErrRecord.reset)
    (halted : s.error.err = true → s.busy = false ∧ s.error.code.raisable ∧ s.error.cnt = s.cmdCnt)
    (refused : s.overrun ≠ none → s.busy = true) : s.ControlOk :=
  ⟨noError, halted, refused, fun hf => Bool.noConfusion (released.symm.trans hf)⟩

/-- When a command has ended, recording the refused word leaves none and keeps one error record (R337). -/
theorem State.ControlOk.settled {s : State} (hb : s.busy = false) (hr : s.outside.rstN = true)
    (hn : s.error.err = false → s.error = ErrRecord.reset)
    (hh : s.error.err = true → s.error.code.raisable ∧ s.error.cnt = s.cmdCnt) : s.settleOverrun.ControlOk := by
  rcases s.settleOverrun_cases with ⟨ho, h⟩ | ⟨w, -, he, h⟩ | ⟨w, -, -, h⟩ <;> rw [h]
  · exact .of_released hr hn (fun he => ⟨hb, hh he⟩) (absurd ho)
  · exact .of_released hr hn (fun he => ⟨hb, hh he⟩) (absurd rfl)
  · exact .of_released hr nofun (fun _ => ⟨hb, ⟨nofun, nofun, nofun⟩, rfl⟩) (absurd rfl)

/-- A change of the world outside that leaves RST_N keeps the control state sound. -/
theorem State.ControlOk.withOutside {s : State} (h : s.ControlOk) (o : Outside) (ho : o.rstN = s.outside.rstN) :
    ({ s with outside := o } : State).ControlOk where
  noError := h.noError
  halted := h.halted
  refused := h.refused
  held := fun hf => by rw [h.held (ho.symm.trans hf)]; rfl

theorem State.ControlOk.resetOf (p : Config.Params) (o : Outside) : (State.resetOf p o).ControlOk :=
  ⟨fun _ => rfl, nofun, fun h => absurd rfl h, fun _ => rfl⟩

/-- While a command is in execution there is no error, and RST_N is released. -/
theorem State.ControlOk.busy {s : State} (h : s.ControlOk) (hb : s.busy = true) :
    s.error = ErrRecord.reset ∧ s.outside.rstN = true := by
  refine ⟨h.noError (Bool.eq_false_iff.mpr fun he => ?_), Bool.eq_true_of_not_eq_false fun hf => ?_⟩
  · exact Bool.noConfusion (hb.symm.trans (h.halted he).1)
  · rw [h.held hf] at hb
    exact Bool.noConfusion hb

theorem State.ControlOk.writeCmd {s : State} (h : s.ControlOk) (hr : s.outside.rstN = true) (w : Word) :
    (s.writeCmd w).ControlOk := by
  unfold State.writeCmd
  split
  · exact h
  · next he =>
    split
    · next hb =>
      split
      · exact .of_released hr h.noError h.halted fun _ => hb
      · exact h
    · exact .of_released hr h.noError (fun e => absurd e he) fun _ => rfl

theorem State.ControlOk.busWrite {s : State} (h : s.ControlOk) (addr : Nat) (w : Word) :
    (s.busWrite addr w).ControlOk := by
  rcases s.busWrite_cases addr w with he | ⟨hr, he⟩ | he <;> rw [he]
  · exact h
  · exact h.writeCmd hr w
  · exact .resetOf _ _

/-- Every turn keeps the control state sound; a command in execution starts without an error. -/
theorem State.ControlOk.turned {s t : State} (h : s.ControlOk) (ht : Turned s t) : t.ControlOk := by
  cases ht with
  | idle _ => exact h
  | completed hb hc =>
    obtain ⟨he, hr⟩ := h.busy hb
    refine .settled rfl (by rw [State.complete_outside, hc.outside_eq, hr]) (fun _ => ?_) fun e => ?_
    · exact hc.error_eq.trans he
    · rw [State.complete_error, hc.error_eq, he] at e
      cases e
  | raised hb hra => exact .settled rfl (h.busy hb).2 nofun fun _ => ⟨hra, rfl⟩
  | written addr w => exact h.busWrite addr w
  | read addr =>
    unfold State.busRead
    split
    · exact h
    · exact h.withOutside _ rfl
  | pin level =>
    unfold State.setRstN
    split
    · next hl => exact .of_released hl h.noError h.halted h.refused
    · exact .resetOf _ _

/-- Settles O59: a turn keeps the control state sound, whichever turn it is. -/
theorem stepKeepsControlOk : Obligations.StepKeepsControlOk := by
  intro s t h hst
  rcases step_turned hst with ht | ht
  · exact h.turned ht
  · exact (h.withOutside s.popTurn.outside rfl).turned ht

end Sys2Proof.Machine

/-! # The ranges of the memories -/

namespace Sys2Proof.Machine

open Sys2Proof.Claims

/-! ### The addresses a memory lists -/

theorem Memory.below_iff {α : Type} {bound : Nat} {m : Memory α} :
    Memory.below bound m = true ↔ ∀ c ∈ m, c.1 < bound := by
  simp [Memory.below]

section
variable {α : Type} [DecidableEq α] {d : α} {bound : Nat}

theorem Memory.below_write {m : Memory α} (hm : Memory.below bound m = true) {a : Nat} (ha : a < bound) (x : α) :
    Memory.below bound (Memory.write d m a x) = true :=
  Memory.below_iff.mpr fun c hc => by
    rcases Memory.mem_write hc with rfl | hc
    · exact ha
    · exact Memory.below_iff.mp hm c hc

theorem Memory.below_writeRun {m : Memory α} (hm : Memory.below bound m = true) (a : Nat) (l : List α)
    (hl : a + l.length ≤ bound) : Memory.below bound (Memory.writeRun d m a l) = true := by
  induction l generalizing m a with
  | nil => exact hm
  | cons x l ih =>
    rw [List.length_cons] at hl
    exact ih (Memory.below_write hm (by omega) x) (a + 1) (by omega)

theorem gridBelow_iff {g : Grid} :
    gridBelow bound g = true ↔ ∀ x ∈ g, x.1 < bound ∧ Memory.below bound x.2 = true := by
  simp only [gridBelow, Bool.and_eq_true, Memory.below_iff, List.all_eq_true, ← forall₂_and]

theorem gridBelow_set {g : Grid} (hg : gridBelow bound g = true) {r c : Nat} (hr : r < bound) (hc : c < bound)
    (v : MCell) : gridBelow bound (gridSet g r c v) = true := by
  have hrow : Memory.below bound (Memory.read [] g r) = true := by
    rcases Memory.read_mem (e := ([] : Memory MCell)) (m := g) (a := r) with h | h
    · rw [h]; rfl
    · exact (gridBelow_iff.mp hg _ h).2
  refine gridBelow_iff.mpr fun x hx => ?_
  rcases Memory.mem_write hx with rfl | hx
  · exact ⟨hr, Memory.below_write hrow hc v⟩
  · exact gridBelow_iff.mp hg x hx

theorem gridBelow_place {g : Grid} (hg : gridBelow bound g = true) {r c : Nat} (hr : r < bound) (hc : c < bound)
    (b : Bool) : gridBelow bound (gridPlace g r c b) = true := by
  unfold gridPlace
  split
  · exact gridBelow_set hg hr hc _
  · exact hg

/-- Every write of a sequence of placements falls in the n × n square. -/
def InSquare (n : Nat) (l : List (Nat × Nat × Bool)) : Prop := ∀ x ∈ l, x.1 < n ∧ x.2.1 < n

theorem gridBelow_placeAll {g : Grid} (hg : gridBelow bound g = true) {l : List (Nat × Nat × Bool)}
    (hl : InSquare bound l) : gridBelow bound (gridPlaceAll g l) = true := by
  induction l generalizing g with
  | nil => exact hg
  | cons x l ih =>
    obtain ⟨hx, hl⟩ := List.forall_mem_cons.mp hl
    exact ih (gridBelow_place hg hx.1 hx.2 _) hl

theorem gridBelow_clear {g : Grid} (hg : gridBelow bound g = true) (n : Nat) :
    gridBelow bound (gridClear n g) = true := by
  induction g with
  | nil => rfl
  | cons x g ih =>
    obtain ⟨k, row⟩ := x
    obtain ⟨⟨hk, hrow⟩, hg⟩ := List.forall_mem_cons.mp (gridBelow_iff.mp hg)
    have ih := ih (gridBelow_iff.mpr hg)
    rw [gridClear_cons]
    split
    · exact ih
    · refine gridBelow_iff.mpr (List.forall_mem_cons.mpr ⟨⟨hk, ?_⟩, gridBelow_iff.mp ih⟩)
      unfold clearedRow
      split
      · exact Memory.below_iff.mpr fun c hc => Memory.below_iff.mp hrow c (List.mem_of_mem_filter hc)
      · exact hrow

theorem gridBelow_mapCells {g : Grid} (hg : gridBelow bound g = true) (m : Nat) {l : List (Nat × Nat)}
    (hl : ∀ x ∈ l, x.1 < bound ∧ x.2 < bound) (bs : List Bool) : gridBelow bound (mapCells m l bs g) = true := by
  induction l generalizing g bs with
  | nil => exact hg
  | cons x l ih =>
    obtain ⟨hx, hl⟩ := List.forall_mem_cons.mp hl
    unfold mapCells
    split
    · exact ih (gridBelow_set hg hx.1 hx.2 _) hl _
    · exact ih hg hl _

end

/-! ### The placements fall in the square -/

theorem InSquare.mono {n bound : Nat} {l : List (Nat × Nat × Bool)} (h : InSquare n l) (hn : n ≤ bound) :
    InSquare bound l := fun x hx => ⟨(h x hx).1.trans_le hn, (h x hx).2.trans_le hn⟩

theorem InSquare.append {n : Nat} {l l' : List (Nat × Nat × Bool)} (h : InSquare n l) (h' : InSquare n l') :
    InSquare n (l ++ l') := fun x hx => (List.mem_append.mp hx).elim (h x) (h' x)

theorem InSquare.flatMap {ι : Type} {n : Nat} {l : List ι} {f : ι → List (Nat × Nat × Bool)}
    (h : ∀ i ∈ l, InSquare n (f i)) : InSquare n (l.flatMap f) := fun x hx => by
  obtain ⟨i, hi, hx⟩ := List.mem_flatMap.mp hx
  exact h i hi x hx

theorem probeWrites_inSquare (n R C : Nat) : InSquare n (probeWrites n R C) := by
  refine .flatMap fun r _ x hx => ?_
  obtain ⟨c, -, hc⟩ := List.mem_filterMap.mp hx
  split at hc
  · obtain rfl := Option.some.inj hc
    dsimp only
    omega
  · cases hc

theorem mem_offsets {lo x : Int} {n : Nat} (h : x ∈ offsets lo n) : lo ≤ x ∧ x < lo + n := by
  simp only [offsets, List.mem_map, List.mem_range] at h
  omega

theorem alignWrites_inSquare {n R C : Nat} (hR : R + 2 < n) (hC : C + 2 < n) : InSquare n (alignWrites R C) := by
  refine .flatMap fun r hr x hx => ?_
  obtain ⟨c, hc, rfl⟩ := List.mem_map.mp hx
  have := mem_offsets hr
  have := mem_offsets hc
  dsimp only
  omega

/-- The rows of ALIGNPOS keep every stamp inside the symbol (R260, R261). -/
theorem alignPos_bound : ∀ v ≤ Config.maxVer, ∀ R ∈ alignPos v, R + 2 < sideOf v := by decide +kernel

theorem InSquare.cons {n r c : Nat} {b : Bool} {l : List (Nat × Nat × Bool)} (hr : r < n) (hc : c < n)
    (hl : InSquare n l) : InSquare n ((r, c, b) :: l) := List.forall_mem_cons.mpr ⟨⟨hr, hc⟩, hl⟩

theorem InSquare.nil {n : Nat} : InSquare n [] := nofun

/-- Each index of a range places two cells, both in the square. -/
theorem InSquare.pairs {n k : Nat} {p q : Nat → Nat × Nat} {b : Nat → Bool}
    (h : ∀ i < k, ((p i).1 < n ∧ (p i).2 < n) ∧ (q i).1 < n ∧ (q i).2 < n) :
    InSquare n ((List.range k).flatMap fun i => [((p i).1, (p i).2, b i), ((q i).1, (q i).2, b i)]) :=
  .flatMap fun i hi =>
    have ⟨hp, hq⟩ := h i (List.mem_range.mp hi)
    .cons hp.1 hp.2 (.cons hq.1 hq.2 .nil)

section
variable {n bound : Nat} {g : Grid}

theorem gridBelow_probes (hg : gridBelow bound g = true) (hn : n ≤ bound) :
    gridBelow bound (placeProbes n g) = true :=
  gridBelow_placeAll hg
    ((((probeWrites_inSquare n 0 0).append (probeWrites_inSquare n _ 0)).append
      (probeWrites_inSquare n 0 _)).mono hn)

theorem gridBelow_alignAt (hg : gridBelow bound g = true) {R C : Nat} (hR : R + 2 < bound) (hC : C + 2 < bound) :
    gridBelow bound (placeAlignAt g R C) = true := by
  unfold placeAlignAt
  split
  · exact hg
  · exact gridBelow_placeAll hg (alignWrites_inSquare hR hC)

theorem gridBelow_align (hg : gridBelow bound g = true) {v : Nat} (hv : v ≤ Config.maxVer) (hn : sideOf v ≤ bound) :
    gridBelow bound (placeAlign v g) = true := by
  have hpos : ∀ R ∈ alignPos v, R + 2 < bound := fun R hR => (alignPos_bound v hv R hR).trans_le hn
  exact List.foldlRecOn (motive := fun g => gridBelow bound g = true) _ _ hg fun g hg R hR =>
    List.foldlRecOn (motive := fun g => gridBelow bound g = true) _ _ hg fun g hg C hC =>
      gridBelow_alignAt hg (hpos R hR) (hpos C hC)

theorem gridBelow_timing (hg : gridBelow bound g = true) (h6 : 6 < n) (hn : n ≤ bound) :
    gridBelow bound (placeTiming n g) = true :=
  gridBelow_placeAll hg ((InSquare.pairs (p := fun i => (i, 6)) (q := fun i => (6, i))
    fun _ hi => ⟨⟨hi, h6⟩, h6, hi⟩).mono hn)

theorem gridBelow_typeInfo (hg : gridBelow bound g = true) (hn21 : 21 ≤ n) (hn : n ≤ bound) (w : Nat) (t : Bool) :
    gridBelow bound (placeTypeInfo n w t g) = true := by
  refine gridBelow_placeAll hg (.mono (.append (.pairs fun i hi => ?_) (.cons ?_ ?_ .nil)) hn)
  · unfold posA posB
    split_ifs <;> dsimp only <;> omega
  all_goals omega

theorem gridBelow_typeNum (hg : gridBelow bound g = true) (hn21 : 21 ≤ n) (hn : n ≤ bound) (v : Nat) (t : Bool) :
    gridBelow bound (placeTypeNum v n t g) = true := by
  unfold placeTypeNum
  split
  · refine gridBelow_placeAll hg (.mono (.pairs fun i hi => ?_) hn)
    unfold posV1 posV2
    dsimp only
    omega
  · exact hg

theorem pairColumns_lt {fuel col x : Nat} (h : x ∈ pairColumns fuel col) : x ≤ max col 5 := by
  induction fuel generalizing col with
  | zero => cases h
  | succ fuel ih =>
    unfold pairColumns at h
    split_ifs at h with h0 h6
    · cases h
    · rcases List.mem_cons.mp h with rfl | h
      · omega
      · have := ih h
        omega
    · rcases List.mem_cons.mp h with rfl | h
      · omega
      · have := ih h
        omega

theorem walkPairs_inSquare {n : Nat} {up : Bool} {cols : List Nat} (hcols : ∀ c ∈ cols, c < n) :
    ∀ x ∈ walkPairs n up cols, x.1 < n ∧ x.2 < n := by
  induction cols generalizing up with
  | nil => nofun
  | cons col cols ih =>
    obtain ⟨hcol, hcols⟩ := List.forall_mem_cons.mp hcols
    intro x hx
    rcases List.mem_append.mp hx with hx | hx
    · obtain ⟨row, hrow, hx⟩ := List.mem_flatMap.mp hx
      have hlt : row < n := by cases up <;> simpa [pairRows] using hrow
      simp only [List.mem_cons, List.not_mem_nil, or_false] at hx
      rcases hx with rfl | rfl
      · exact ⟨hlt, hcol⟩
      · exact ⟨hlt, by dsimp only; omega⟩
    · exact ih hcols x hx

/-- The mapping walk stays in the square (R270). -/
theorem walk_inSquare {n : Nat} (hn : 6 ≤ n) : ∀ x ∈ walk n, x.1 < n ∧ x.2 < n :=
  walkPairs_inSquare fun c hc => by
    have := pairColumns_lt hc
    omega

theorem gridBelow_mapData (hg : gridBelow bound g = true) (hn6 : 6 ≤ n) (hn : n ≤ bound) (m : Nat) (S : List Byte) :
    gridBelow bound (mapData n m S g) = true :=
  gridBelow_mapCells hg m (fun x hx => (walk_inSquare hn6 x hx).imp (·.trans_le hn) (·.trans_le hn)) _

theorem gridBelow_build (hg : gridBelow bound g = true) {v : Nat} (hv0 : v ≠ 0) (hv : v ≤ Config.maxVer)
    (hn : sideOf v ≤ bound) (e m : Nat) (t : Bool) (S : List Byte) :
    gridBelow bound (buildCells v e m t S g) = true := by
  have hn21 : 21 ≤ sideOf v := by unfold sideOf; omega
  exact gridBelow_mapData (gridBelow_typeNum (gridBelow_typeInfo (gridBelow_timing (gridBelow_align
    (gridBelow_probes (gridBelow_clear hg _) hn) hv hn) (by omega) hn) hn21 hn _ t) hn21 hn v t) (by omega) hn m S

end

end Sys2Proof.Machine

/-! # The ranges of the elements, and the codeword stream -/

namespace Sys2Proof.Machine

open Sys2Proof.Claims

/-! ### A turn and the data -/

/-- The states hold the same data: all the elements but the scalar registers, the scores and the control state. -/
structure SameData (s t : State) : Prop where
  polys : t.polys = s.polys
  conf : t.conf = s.conf
  bb : t.bb = s.bb
  cw : t.cw = s.cw
  mx : t.mx = s.mx

theorem SameData.refl (s : State) : SameData s s := ⟨rfl, rfl, rfl, rfl, rfl⟩

theorem SameData.trans {s t u : State} (h : SameData s t) (h' : SameData t u) : SameData s u :=
  ⟨h'.polys.trans h.polys, h'.conf.trans h.conf, h'.bb.trans h.bb, h'.cw.trans h.cw, h'.mx.trans h.mx⟩

theorem SameData.settleOverrun (s : State) : SameData s s.settleOverrun := by
  rcases s.settleOverrun_cases with ⟨-, h⟩ | ⟨w, -, -, h⟩ | ⟨w, -, -, h⟩ <;> rw [h]
  all_goals exact ⟨rfl, rfl, rfl, rfl, rfl⟩

theorem SameData.writeCmd (s : State) (w : Word) : SameData s (s.writeCmd w) := by
  unfold State.writeCmd
  split_ifs
  · exact .refl s
  · split <;> exact ⟨rfl, rfl, rfl, rfl, rfl⟩
  · exact ⟨rfl, rfl, rfl, rfl, rfl⟩

/-- What a turn does to the data: nothing, a reset, or the writes of a completing command. -/
theorem Turned.data {s t : State} (h : Turned s t) :
    SameData s t ∨ (∃ p o, t = State.resetOf p o) ∨ ∃ i s', Completion s i s' ∧ SameData s' t := by
  cases h with
  | idle _ => exact .inl (.refl s)
  | @completed i s' _ hc =>
    exact .inr (.inr ⟨i, s', hc, .trans (t := s'.complete) ⟨rfl, rfl, rfl, rfl, rfl⟩ (.settleOverrun _)⟩)
  | @raised e _ _ => exact .inl (.trans (t := s.raised e) ⟨rfl, rfl, rfl, rfl, rfl⟩ (.settleOverrun _))
  | read addr => exact .inl ⟨by simp, by simp, by simp, by simp, by simp⟩
  | pin level =>
    cases level with
    | true => exact .inl ⟨rfl, rfl, rfl, rfl, rfl⟩
    | false => exact .inr (.inl ⟨_, _, rfl⟩)
  | written addr w =>
    rcases s.busWrite_cases addr w with he | ⟨-, he⟩ | he <;> rw [he]
    · exact .inl (.refl s)
    · exact .inl (.writeCmd s w)
    · exact .inr (.inl ⟨_, _, rfl⟩)

/-- What a step does to the data: nothing, a reset, or the writes of a command that completes from the same data. -/
theorem step_data {s t : State} (h : step s = .next t) :
    SameData s t ∨ (∃ p o, t = State.resetOf p o) ∨
      ∃ s₀ i s', SameData s s₀ ∧ Completion s₀ i s' ∧ SameData s' t := by
  have hpop : SameData s s.popTurn := ⟨rfl, rfl, rfl, rfl, rfl⟩
  rcases step_turned h with ht | ht
  · exact ht.data.imp_right (.imp_right fun ⟨i, s', hc⟩ => ⟨s, i, s', .refl s, hc⟩)
  · exact ht.data.imp hpop.trans (.imp_right fun ⟨i, s', hc⟩ => ⟨s.popTurn, i, s', hpop, hc⟩)

/-! ### The bit buffer -/

@[simp] theorem padBits_length (n : Nat) (b : Bool) : (padBits n b).length = 8 * n := by
  induction n generalizing b with
  | zero => rfl
  | succ n ih => simp [padBits, ih]; omega

/-- BB_FINAL fills the capacity exactly (R179). -/
theorem final_length {k : Nat} {bb : List Bool} (h : bb.length ≤ k * 8) :
    (fillPads (k * 8) (padToByte (addTerminator (k * 8) bb))).length = k * 8 := by
  have hterm : (addTerminator (k * 8) bb).length ≤ k * 8 := by
    unfold addTerminator
    split
    · simpa using ‹_›
    · exact h
  have hbyte : (padToByte (addTerminator (k * 8) bb)).length % 8 = 0 ∧
      (padToByte (addTerminator (k * 8) bb)).length ≤ k * 8 := by
    simp only [padToByte, List.length_append, List.length_replicate]
    omega
  simp only [fillPads, List.length_append, padBits_length]
  omega

theorem cap_bits_le {s : State} (hv : s.conf.ver.toNat ≤ Config.maxVer) (hv0 : s.conf.ver ≠ 0) :
    s.cap * 8 ≤ Config.bbMaxBits :=
  (blockRow_facts _ hv _ s.conf.ecl.isLt fun h => hv0 (BitVec.eq_of_toNat_eq h)).2.2

/-! ### Shaped -/

theorem side_toNat {v : Nat} (hv : v ≤ Config.maxVer) : (BitVec.ofNat 8 (sideOf v)).toNat = sideOf v := by
  simp only [BitVec.toNat_ofNat, sideOf, Config.maxVer] at *
  omega

section
variable {s s' : State} {i : Instr}

theorem State.Shaped.congr (h : s.Shaped) (hd : SameData s s') : s'.Shaped where
  polys p := by rw [State.poly_congr s s' hd.polys]; exact h.polys p
  ver := by rw [hd.conf]; exact h.ver
  buffer := by rw [hd.bb]; exact h.buffer
  cwLen := by rw [hd.cw]; exact h.cwLen
  cwm := by rw [hd.cw]; exact h.cwm
  mat := by rw [hd.mx]; exact h.mat
  noMatrix := by rw [hd.mx]; exact h.noMatrix
  matrix := by rw [State.side, hd.mx, hd.conf]; exact h.matrix

theorem Completion.polys_le (hc : Completion s i s') (h : ∀ p, (s.poly p).length ≤ Config.pMax) (p : PReg) :
    (s'.poly p).length ≤ Config.pMax := by
  cases hc with
  | poly pd q bounded =>
    by_cases hp : p = pd
    · rw [hp, State.poly_setPoly_self]; exact bounded h
    · rw [State.poly_setPoly_other _ _ _ _ hp]; exact h p
  | _ => exact h p

theorem Completion.ver_le (hc : Completion s i s') (h : s.conf.ver.toNat ≤ Config.maxVer) :
    s'.conf.ver.toNat ≤ Config.maxVer := by
  cases hc with
  | setver range => exact (Nat.mod_le _ _).trans range
  | _ => exact h

theorem Completion.buffer_le (hc : Completion s i s') (h : s.Shaped) : s'.bb.length ≤ Config.bbMaxBits := by
  cases hc with
  | bbClr => exact Nat.zero_le _
  | bbPut room | bbPutr room => simpa using room
  | bbFinal ver room =>
    rw [State.setBuffer_bb, final_length room]
    exact cap_bits_le h.ver ver
  | _ => exact h.buffer

/-- RS_ENCODE leaves CWLEN = total(VER), which CWM holds. -/
theorem stream_length (hv : s.conf.ver.toNat ≤ Config.maxVer) (hv0 : s.conf.ver ≠ 0) {S : List Byte}
    (hS : codewordsOf s.conf.ver.toNat s.conf.ecl.toNat s.bb = .ok S) :
    S.length = totalOf s.conf.ver.toNat ∧ S.length ≤ Config.cwmBytes ∧ (s.setStream S).cw.len.toNat = S.length := by
  have hv0' : s.conf.ver.toNat ≠ 0 := fun h => hv0 (BitVec.eq_of_toNat_eq h)
  have hlen := codewordsOf_length hS hv hv0' s.conf.ecl.isLt
  have hle := (blockRow_facts _ hv _ s.conf.ecl.isLt hv0').2.1
  refine ⟨hlen, hlen ▸ hle, ?_⟩
  rw [State.setStream_cw, BitVec.toNat_ofNat]
  simp only [Config.cwmBytes] at hle
  omega

theorem Completion.cwm_bounded (hc : Completion s i s') (h : s.Shaped) :
    s'.cw.len.toNat ≤ Config.cwmBytes ∧ Memory.below Config.cwmBytes s'.cw.cells = true := by
  cases hc with
  | rsEncode S ver _ codewords =>
    obtain ⟨-, hle, hlen⟩ := stream_length h.ver ver codewords
    exact ⟨hlen ▸ hle, Memory.below_writeRun h.cwm 0 S (by omega)⟩
  | _ => exact ⟨h.cwLen, h.cwm⟩

/-- The square of a state with a matrix is that of a version, and lies in MAT. -/
theorem State.Shaped.side_bounds (h : s.Shaped) (hm : s.mx.mstate ≠ .none) :
    21 ≤ s.side ∧ s.side ≤ Config.maxSide := by
  obtain ⟨hv, hs⟩ := h.matrix hm
  have hv40 : s.conf.ver.toNat ≤ 40 := h.ver
  have : s.conf.ver.toNat ≠ 0 := fun h => hv (BitVec.eq_of_toNat_eq h)
  simp only [Config.maxSide]
  omega

theorem sideOf_le {v : Nat} (hv : v ≤ Config.maxVer) : sideOf v ≤ Config.maxSide := by
  simp only [sideOf, Config.maxVer, Config.maxSide] at *
  omega

theorem gridBelow_built (h : s.Shaped) (ver : s.conf.ver ≠ 0) (t : Bool) (m : Nat) :
    gridBelow Config.maxSide (s.built t m) = true :=
  gridBelow_build h.mat (fun h => ver (BitVec.eq_of_toNat_eq h)) h.ver (sideOf_le h.ver) _ m t _

theorem Completion.mat_bounded (hc : Completion s i s') (h : s.Shaped) :
    gridBelow Config.maxSide s'.mx.cells = true := by
  cases hc with
  | mInit _ => exact gridBelow_clear h.mat _
  | mProbes hm cells => exact (congrArg _ cells).trans (gridBelow_probes h.mat (h.side_bounds (hm.trans_ne nofun)).2)
  | mAlign _ cells => exact (congrArg _ cells).trans (gridBelow_align h.mat h.ver (sideOf_le h.ver))
  | mTiming hm cells =>
    obtain ⟨h21, hle⟩ := h.side_bounds (hm.trans_ne nofun)
    exact (congrArg _ cells).trans (gridBelow_timing h.mat (by omega) hle)
  | @mTypeinfo t _ hm cells =>
    obtain ⟨h21, hle⟩ := h.side_bounds (hm.trans_ne nofun)
    exact (congrArg _ cells).trans (gridBelow_typeInfo h.mat h21 hle _ t)
  | mTypenum hm cells =>
    obtain ⟨h21, hle⟩ := h.side_bounds (hm.trans_ne nofun)
    exact (congrArg _ cells).trans (gridBelow_typeNum h.mat h21 hle _ _)
  | mMap hm _ cells =>
    obtain ⟨h21, hle⟩ := h.side_bounds (hm.elim (·.trans_ne nofun) (·.1.trans_ne nofun))
    exact (congrArg _ cells).trans (gridBelow_mapData h.mat (by omega) hle _ _)
  | mBuild ver _ => exact gridBelow_built h ver _ _
  | mSelect ver _ _ => exact gridBelow_built h ver _ _
  | _ => exact h.mat

/-- The last two parts of `Shaped`: SIDE is 0 without a matrix, and the version's side with one. -/
def State.SideOk (s : State) : Prop :=
  (s.mx.mstate = .none → s.mx.side = 0) ∧
    (s.mx.mstate ≠ .none → s.conf.ver ≠ 0 ∧ s.side = 4 * s.conf.ver.toNat + 17)

theorem Completion.sideOk (hc : Completion s i s') (h : s.Shaped) : s'.SideOk := by
  have hnew : (BitVec.ofNat 8 (sideOf s.conf.ver.toNat)).toNat = 4 * s.conf.ver.toNat + 17 := side_toNat h.ver
  cases hc with
  | setver _ | setecl _ | setmask _ => exact ⟨fun _ => rfl, fun hne => absurd rfl hne⟩
  | mInit ver | mBuild ver _ | mSelect ver _ _ => exact ⟨nofun, fun _ => ⟨ver, hnew⟩⟩
  | mProbes hm _ | mAlign hm _ | mTiming hm _ | mTypeinfo hm _ | mTypenum hm _ =>
    exact ⟨nofun, fun _ => h.matrix (hm.trans_ne nofun)⟩
  | mMap hm _ _ => exact ⟨nofun, fun _ => h.matrix (hm.elim (·.trans_ne nofun) (·.1.trans_ne nofun))⟩
  | mScore hm => exact ⟨nofun, fun _ => h.matrix (hm.elim (·.trans_ne nofun) (·.trans_ne nofun))⟩
  | _ => exact ⟨h.noMatrix, h.matrix⟩

theorem Completion.shaped (hc : Completion s i s') (h : s.Shaped) : s'.Shaped :=
  have ⟨hlen, hcwm⟩ := hc.cwm_bounded h
  have ⟨hnone, hmatrix⟩ := hc.sideOk h
  { polys := hc.polys_le h.polys
    ver := hc.ver_le h.ver
    buffer := hc.buffer_le h
    cwLen := hlen
    cwm := hcwm
    mat := hc.mat_bounded h
    noMatrix := hnone
    matrix := hmatrix }

theorem resetOf_shaped (p : Config.Params) (o : Outside) : (State.resetOf p o).Shaped where
  polys := (show ∀ p : PReg, (State.reset.poly p).length ≤ Config.pMax by decide)
  ver := Nat.zero_le _
  buffer := Nat.zero_le _
  cwLen := Nat.zero_le _
  cwm := rfl
  mat := rfl
  noMatrix := fun _ => rfl
  matrix := fun h => absurd rfl h

end

/-- Settles O56: a step leaves the data alone, resets it, or makes the writes of one command, and each keeps the
ranges. -/
theorem stepKeepsShaped : Obligations.StepKeepsShaped := by
  intro s t h hst
  rcases step_data hst with hd | ⟨p, o, rfl⟩ | ⟨s₀, i, s', hd₀, hc, hd⟩
  · exact h.congr hd
  · exact resetOf_shaped p o
  · exact (hc.shaped (h.congr hd₀)).congr hd

/-! ### StreamOk -/

section
variable {s s' : State} {i : Instr}

theorem State.stream_congr (h : s'.cw = s.cw) : s'.stream = s.stream := by
  unfold State.stream State.cwm
  rw [h]

theorem State.StreamOk.congr (h : s.StreamOk) (hver : s'.conf.ver = s.conf.ver) (hecl : s'.conf.ecl = s.conf.ecl)
    (hbb : s'.bb = s.bb) (hcw : s'.cw = s.cw) : s'.StreamOk := by
  unfold State.StreamOk State.cap at *
  rw [hver, hecl, hbb, hcw, State.stream_congr hcw]
  exact h

/-- After S has been written, the valid stream is S. -/
theorem setStream_stream (hm : Memory.wf cwmUnwritten s.cw.cells = true) {S : List Byte}
    (hlen : (s.setStream S).cw.len.toNat = S.length) : (s.setStream S).stream = S := by
  refine List.ext_getElem (by rw [State.stream, List.length_map, List.length_range, hlen]) fun k _ hk => ?_
  simp only [State.stream, State.cwm, List.getElem_map, List.getElem_range, State.setStream_cw]
  rw [Memory.read_writeRun hm, if_pos ⟨Nat.zero_le k, by omega⟩, Nat.sub_zero, List.getD_eq_getElem _ _ hk]

theorem State.StreamOk.sameData (h : s.StreamOk) (hd : SameData s s') : s'.StreamOk :=
  h.congr (congrArg Conf.ver hd.conf) (congrArg Conf.ecl hd.conf) hd.bb hd.cw

/-- A command that touches VER, ECL or the buffer invalidates the stream, and RS_ENCODE writes a valid one. -/
theorem Completion.streamOk (hc : Completion s i s') (hm : Memory.wf cwmUnwritten s.cw.cells = true) (h : s.Shaped)
    (hs : s.StreamOk) : s'.StreamOk := by
  cases hc with
  | setver _ | setecl _ | bbClr | bbPut _ | bbPutr _ | bbFinal _ _ => exact nofun
  | rsEncode S ver full codewords =>
    obtain ⟨htotal, -, hlen⟩ := stream_length h.ver ver codewords
    intro _
    refine ⟨ver, full, hlen.trans htotal, ?_⟩
    rw [setStream_stream hm hlen]
    exact codewords
  | _ => exact hs.congr rfl rfl rfl rfl

end

/-- Settles O57: a step leaves the data alone, drops the stream by a reset, or makes the writes of one command. -/
theorem stepKeepsStreamOk : Obligations.StepKeepsStreamOk := by
  intro s t hm h hs hst
  have hwf : Memory.wf cwmUnwritten s.cw.cells = true := (Bool.and_eq_true_iff.mp hm).1
  rcases step_data hst with hd | ⟨p, o, rfl⟩ | ⟨s₀, i, s', hd₀, hc, hd⟩
  · exact hs.sameData hd
  · exact nofun
  · exact (hc.streamOk (by rw [hd₀.cw]; exact hwf) (h.congr hd₀) (hs.sameData hd₀)).sameData hd

end Sys2Proof.Machine

/-! # Who writes what, and the build states -/

namespace Sys2Proof.Machine

open Sys2Proof.Claims

section
variable {s s' : State} {i : Instr}

theorem Completion.ver_writer (hc : Completion s i s') (h : s'.conf.ver ≠ s.conf.ver) : ∃ v, i = .setver v := by
  cases hc with
  | setver _ => exact ⟨_, rfl⟩
  | _ => exact absurd rfl h

theorem Completion.ecl_writer (hc : Completion s i s') (h : s'.conf.ecl ≠ s.conf.ecl) : ∃ e, i = .setecl e := by
  cases hc with
  | setecl _ => exact ⟨_, rfl⟩
  | _ => exact absurd rfl h

theorem Completion.mask_writer (hc : Completion s i s') (h : s'.conf.mask ≠ s.conf.mask) :
    (∃ m, i = .setmask m) ∨ i = .mSelect := by
  cases hc with
  | setmask _ => exact .inl ⟨_, rfl⟩
  | mSelect _ _ _ => exact .inr rfl
  | _ => exact absurd rfl h

/-- The commands that write BB (R172 to R177). -/
def WritesBuffer (i : Instr) : Prop :=
  i = .bbClr ∨ (∃ n v, i = .bbPut n v) ∨ (∃ r n, i = .bbPutr r n) ∨ i = .bbFinal

theorem Completion.buffer_writer (hc : Completion s i s') (h : s'.bb ≠ s.bb) : WritesBuffer i := by
  cases hc with
  | bbClr => exact .inl rfl
  | bbPut _ => exact .inr (.inl ⟨_, _, rfl⟩)
  | bbPutr _ => exact .inr (.inr (.inl ⟨_, _, rfl⟩))
  | bbFinal _ _ => exact .inr (.inr (.inr rfl))
  | _ => exact absurd rfl h

/-- Every other command that writes BB appends to it. -/
theorem Completion.buffer_shrinker (hc : Completion s i s') (h : s'.bb.length < s.bb.length) : i = .bbClr := by
  cases hc with
  | bbClr => rfl
  | bbPut _ | bbPutr _ => simp at h
  | bbFinal _ room =>
    rw [State.setBuffer_bb, final_length room] at h
    omega
  | _ => exact absurd h (Nat.lt_irrefl _)

theorem Completion.cwm_writer (hc : Completion s i s') (h : (∃ k, s'.cwm k ≠ s.cwm k) ∨ s'.cw.len ≠ s.cw.len) :
    i = .rsEncode := by
  cases hc with
  | rsEncode _ _ _ _ => rfl
  | _ => exact h.elim (fun ⟨_, h⟩ => absurd rfl h) (absurd rfl)

theorem Completion.ready_setter (hc : Completion s i s') (h : s.cw.ready = false) (h' : s'.cw.ready = true) :
    i = .rsEncode := by
  cases hc with
  | rsEncode _ _ _ _ => rfl
  | setver _ | setecl _ | bbClr | bbPut _ | bbPutr _ | bbFinal _ _ => cases h'
  | _ => exact Bool.noConfusion (h.symm.trans h')

theorem Completion.ready_clearer (hc : Completion s i s') (h : s.cw.ready = true) (h' : s'.cw.ready = false) :
    (∃ v, i = .setver v) ∨ (∃ e, i = .setecl e) ∨ WritesBuffer i := by
  cases hc with
  | setver _ => exact .inl ⟨_, rfl⟩
  | setecl _ => exact .inr (.inl ⟨_, rfl⟩)
  | bbClr => exact .inr (.inr (.inl rfl))
  | bbPut _ => exact .inr (.inr (.inr (.inl ⟨_, _, rfl⟩)))
  | bbPutr _ => exact .inr (.inr (.inr (.inr (.inl ⟨_, _, rfl⟩))))
  | bbFinal _ _ => exact .inr (.inr (.inr (.inr (.inr rfl))))
  | rsEncode _ _ _ _ => cases h'
  | _ => exact Bool.noConfusion (h.symm.trans h')

theorem Completion.score_writer (hc : Completion s i s') (h : s'.score ≠ s.score) : i = .mScore ∨ i = .mSelect := by
  cases hc with
  | mScore _ => exact .inl rfl
  | mSelect _ _ _ => exact .inr rfl
  | _ => exact absurd rfl h

theorem Completion.sel_writer (hc : Completion s i s') (h : s'.sel ≠ s.sel) : i = .mSelect := by
  cases hc with
  | mSelect _ _ _ => rfl
  | _ => exact absurd rfl h

theorem Completion.mtest_setter (hc : Completion s i s') (h : s.mx.mtest = false) (h' : s'.mx.mtest = true) :
    i = .mTypeinfo true ∨ i = .mTypenum true ∨ i = .mBuild true := by
  cases hc with
  | @mTypeinfo t _ _ _ =>
    rw [State.markTest_mx, State.setGrid_mx, h] at h'
    exact .inl (congrArg _ h')
  | @mTypenum t _ _ _ =>
    rw [State.markTest_mx, State.setGrid_mx, h] at h'
    exact .inr (.inl (congrArg _ h'))
  | mBuild _ _ => exact .inr (.inr (congrArg _ h'))
  | mInit _ | mSelect _ _ _ => cases h'
  | _ => exact Bool.noConfusion (h.symm.trans h')

theorem Completion.mtest_clearer (hc : Completion s i s') (h : s.mx.mtest = true) (h' : s'.mx.mtest = false) :
    i = .mInit ∨ i = .mBuild false ∨ i = .mSelect := by
  cases hc with
  | mInit _ => exact .inl rfl
  | mBuild _ _ => exact .inr (.inl (congrArg _ h'))
  | mSelect _ _ _ => exact .inr (.inr rfl)
  | mTypeinfo _ _ | mTypenum _ _ =>
    rw [State.markTest_mx, State.setGrid_mx, h] at h'
    cases h'
  | _ => exact Bool.noConfusion (h.symm.trans h')

/-- What a completing command required of the build state, and what it leaves (R28). -/
theorem Completion.buildState (hc : Completion s i s') : Required i s ∧ s'.mx.mstate = StateAfter i s.mx.mstate := by
  cases hc with
  | reg _ _ required after => exact ⟨required, (after _).symm⟩
  | poly _ _ _ required after => exact ⟨required, (after _).symm⟩
  | mProbes hm _ | mAlign hm _ | mTiming hm _ | mTypeinfo hm _ | mTypenum hm _ => exact ⟨hm, rfl⟩
  | mMap hm _ _ | mScore hm => exact ⟨hm, rfl⟩
  | _ => exact ⟨trivial, rfl⟩

end

/-- Settles O3: a raised error writes none of these elements, and each element's writers are known among the
completing commands. -/
theorem onlyTheNamedCommandsWrite : Obligations.OnlyTheNamedCommandsWrite := by
  intro i s t h
  rcases exec_ends i s with ⟨s', hc, he⟩ | ⟨e, -, he⟩
  · obtain rfl := next_inj (he.symm.trans h)
    exact ⟨hc.ver_writer, hc.ecl_writer, hc.mask_writer, hc.buffer_writer, hc.buffer_shrinker, hc.cwm_writer,
      hc.ready_setter, hc.ready_clearer, hc.score_writer, hc.sel_writer, hc.mtest_setter, hc.mtest_clearer⟩
  · obtain rfl := next_inj (he.symm.trans h)
    exact ⟨absurd rfl, absurd rfl, absurd rfl, absurd rfl, fun h => absurd h (Nat.lt_irrefl _),
      fun h => h.elim (fun ⟨_, h⟩ => absurd rfl h) (absurd rfl), fun h h' => Bool.noConfusion (h.symm.trans h'),
      fun h h' => Bool.noConfusion (h.symm.trans h'), absurd rfl, absurd rfl,
      fun h h' => Bool.noConfusion (h.symm.trans h'), fun h h' => Bool.noConfusion (h.symm.trans h')⟩

theorem MState.code_toNat (m : MState) : m.code.toNat = mstateCode m := by cases m <;> rfl

/-- Settles O4: CMDCNT tells a completion from an error. -/
theorem buildStateTransitions : Obligations.BuildStateTransitions := by
  refine ⟨MState.code_toNat, fun i s t h hcnt => ?_, rfl⟩
  rcases exec_ends i s with ⟨s', hc, he⟩ | ⟨e, -, he⟩
  · obtain rfl := next_inj (he.symm.trans h)
    exact hc.buildState
  · obtain rfl := next_inj (he.symm.trans h)
    rw [State.raised_cmdCnt] at hcnt
    exact absurd hcnt (by bv_omega)

end Sys2Proof.Machine

/-! # What the spec leaves unspecified is not observed

Two states that agree are a state `s` and `s.withCells c g`, the same but for the bytes c of CWM and the cells g of
MAT. Every command run on both reads only bytes of the valid stream and cells of the square, so it does the same. -/

namespace Sys2Proof.Machine

open Sys2Proof.Claims

/-! ### Matrices that agree on the square -/

/-- Two canonical matrices hold the same cells in the n × n square. -/
structure SquareAgree (n : Nat) (g g' : Grid) : Prop where
  wf : gridWf g = true
  wf' : gridWf g' = true
  cells : ∀ r c, r < n → c < n → gridGet g' r c = gridGet g r c

section
variable {n : Nat} {g g' : Grid}

theorem SquareAgree.clear (h : gridWf g = true) (h' : gridWf g' = true) (n : Nat) :
    SquareAgree n (gridClear n g) (gridClear n g') where
  wf := gridWf_clear h n
  wf' := gridWf_clear h' n
  cells r c hr hc := by rw [gridGet_clear h, gridGet_clear h', if_pos ⟨hr, hc⟩, if_pos ⟨hr, hc⟩]

theorem SquareAgree.set (h : SquareAgree n g g') (r c : Nat) (v : MCell) :
    SquareAgree n (gridSet g r c v) (gridSet g' r c v) where
  wf := gridWf_set h.wf r c v
  wf' := gridWf_set h.wf' r c v
  cells i j hi hj := by rw [gridGet_set h.wf, gridGet_set h.wf', h.cells i j hi hj]

/-- What a placement leaves at a cell depends on what that cell held. -/
theorem SquareAgree.placeAll (h : SquareAgree n g g') (l : List (Nat × Nat × Bool)) :
    SquareAgree n (gridPlaceAll g l) (gridPlaceAll g' l) where
  wf := gridWf_placeAll h.wf l
  wf' := gridWf_placeAll h.wf' l
  cells r c hr hc := by rw [gridGet_placeAll h.wf, gridGet_placeAll h.wf', h.cells r c hr hc]

theorem SquareAgree.alignAt (h : SquareAgree n g g') {R C : Nat} (hR : R < n) (hC : C < n) :
    SquareAgree n (placeAlignAt g R C) (placeAlignAt g' R C) := by
  unfold placeAlignAt
  rw [h.cells R C hR hC]
  split
  · exact h
  · exact h.placeAll _

/-- Two folds over one list keep a relation that each step keeps. -/
theorem foldl_related {α β : Type} {R : β → β → Prop} {f : β → α → β} {l : List α}
    (hf : ∀ x ∈ l, ∀ a b, R a b → R (f a x) (f b x)) {a b : β} (h : R a b) : R (l.foldl f a) (l.foldl f b) := by
  induction l generalizing a b with
  | nil => exact h
  | cons x l ih =>
    obtain ⟨hx, hl⟩ := List.forall_mem_cons.mp hf
    exact ih hl (hx a b h)

theorem SquareAgree.align (h : SquareAgree n g g') {v : Nat} (hv : v ≤ Config.maxVer) (hn : n = sideOf v) :
    SquareAgree n (placeAlign v g) (placeAlign v g') := by
  have hpos : ∀ R ∈ alignPos v, R < n := fun R hR => by
    have := alignPos_bound v hv R hR
    omega
  refine foldl_related (fun R hR _ _ h => ?_) h
  refine foldl_related (R := SquareAgree n) (fun C hC _ _ h => ?_) h
  exact h.alignAt (hpos R hR) (hpos C hC)

theorem SquareAgree.typeNum (h : SquareAgree n g g') (v : Nat) (t : Bool) :
    SquareAgree n (placeTypeNum v n t g) (placeTypeNum v n t g') := by
  unfold placeTypeNum
  split
  · exact h.placeAll _
  · exact h

theorem SquareAgree.mapCells (h : SquareAgree n g g') (m : Nat) {l : List (Nat × Nat)}
    (hl : ∀ x ∈ l, x.1 < n ∧ x.2 < n) (bs : List Bool) : SquareAgree n (mapCells m l bs g) (mapCells m l bs g') := by
  induction l generalizing g g' bs with
  | nil => exact h
  | cons x l ih =>
    obtain ⟨hx, hl⟩ := List.forall_mem_cons.mp hl
    unfold Machine.mapCells
    rw [h.cells x.1 x.2 hx.1 hx.2]
    split
    · exact ih (h.set _ _ _) hl _
    · exact ih h hl _

theorem SquareAgree.mapData (h : SquareAgree n g g') (hn : 6 ≤ n) (m : Nat) (S : List Byte) :
    SquareAgree n (mapData n m S g) (mapData n m S g') :=
  h.mapCells m (walk_inSquare hn) _

/-- A build starts from a cleared square, so it is the same on any two matrices. -/
theorem SquareAgree.build (h : gridWf g = true) (h' : gridWf g' = true) {v : Nat} (hv : v ≤ Config.maxVer)
    (e m : Nat) (t : Bool) (S : List Byte) :
    SquareAgree (sideOf v) (buildCells v e m t S g) (buildCells v e m t S g') :=
  have hplaced := (((SquareAgree.clear h h' (sideOf v)).placeAll _).align hv rfl).placeAll _
  ((hplaced.placeAll _).typeNum v t).mapData (by unfold sideOf; omega) m S

theorem SquareAgree.score (h : SquareAgree n g g') (mode : Config.N4Mode) : scoreOf mode n g' = scoreOf mode n g := by
  have hrows : darkRows n g' = darkRows n g :=
    List.map_congr_left fun r hr => List.map_congr_left fun c hc => by
      show decide (gridGet g' r c = .dark) = decide (gridGet g r c = .dark)
      rw [h.cells r c (List.mem_range.mp hr) (List.mem_range.mp hc)]
  unfold scoreOf
  rw [hrows]

end

/-! ### States that agree -/

/-- The state with other cells of CWM and MAT. -/
def State.withCells (s : State) (c : List Host.Cell) (g : Grid) : State :=
  { s with cw := { s.cw with cells := c }, mx := { s.mx with cells := g } }

theorem State.withCells_cmd (s : State) (c : List Host.Cell) (g : Grid) : (s.withCells c g).cmd = s.cmd := rfl

theorem State.withCells_outside (s : State) (c : List Host.Cell) (g : Grid) :
    (s.withCells c g).outside = s.outside := rfl

theorem State.withCells_select (s : State) (c : List Host.Cell) (g : Grid) :
    (s.withCells c g).select = s.select := rfl

/-- The cells c and g hold what s shows of CWM and MAT. -/
def SameShown (s : State) (c : List Host.Cell) (g : Grid) : Prop :=
  (s.cw.ready = true → ∀ k, k < s.cw.len.toNat → Memory.read cwmUnwritten c k = s.cwm k) ∧
    (s.mx.mstate ≠ .none → ∀ r k, r < s.side → k < s.side → gridGet g r k = cell s r k)

theorem agree_iff {s s' : State} : Agree s s' ↔ ∃ c g, s' = s.withCells c g ∧ SameShown s c g := by
  constructor
  · rintro ⟨hs, hcw, hmx⟩
    exact ⟨_, _, hs, hcw, hmx⟩
  · rintro ⟨c, g, rfl, hcw, hmx⟩
    exact ⟨rfl, hcw, hmx⟩

theorem agree_refl (s : State) : Agree s s := ⟨rfl, fun _ _ _ => rfl, fun _ _ _ _ _ => rfl⟩

theorem State.withCells_writeCmd (s : State) (c : List Host.Cell) (g : Grid) (w : Word) :
    (s.withCells c g).writeCmd w = (s.writeCmd w).withCells c g := by
  cases he : s.error.err with
  | true => simp [State.writeCmd, State.withCells, he]
  | false =>
    cases hb : s.busy with
    | false => simp [State.writeCmd, State.withCells, he, hb]
    | true => cases ho : s.overrun <;> simp [State.writeCmd, State.withCells, he, hb, ho]

/-- A sound state and other cells that show the same. -/
structure Paired (s : State) (c : List Host.Cell) (g : Grid) : Prop where
  shaped : s.Shaped
  cwmWf : Memory.wf cwmUnwritten s.cw.cells = true
  cwmWf' : Memory.wf cwmUnwritten c = true
  matWf : gridWf s.mx.cells = true
  matWf' : gridWf g = true
  shown : SameShown s c g

/-- Both computations raise one error, or yield related values. -/
def Matched {α : Type} (R : α → α → Prop) : Except CmdError α → Except CmdError α → Prop
  | .ok a, .ok b => R a b
  | .error e, .error f => e = f
  | _, _ => False

section
variable {α β : Type} {R : α → α → Prop}

theorem Matched.raiseIf {bad : Prop} [Decidable bad] {e : CmdError} {k k' : Except CmdError α}
    (hk : ¬ bad → Matched R k k') : Matched R (raiseIf bad e k) (raiseIf bad e k') := by
  by_cases h : bad
  · rw [raiseIf_pos h, raiseIf_pos h]; rfl
  · rw [raiseIf_neg h, raiseIf_neg h]; exact hk h

theorem Matched.bind {m : Except CmdError β} {f f' : β → Except CmdError α} (hf : ∀ b, Matched R (f b) (f' b)) :
    Matched R (m >>= f) (m >>= f') := by
  cases m with
  | ok b => exact hf b
  | error e => exact rfl

end

/-- Both outcomes are next states, and they agree. -/
def Alike (o o' : Outcome) : Prop := ∃ t t', o = .next t ∧ o' = .next t' ∧ Agree t t'

section
variable {s : State} {c : List Host.Cell} {g : Grid}

theorem Matched.needVer {R : State → State → Prop} {k k' : Effect} (hk : s.conf.ver ≠ 0 → Matched R k k') :
    Matched R (s.needVer k) ((s.withCells c g).needVer k') :=
  .raiseIf hk

theorem Matched.needMState {R : State → State → Prop} {ok : Prop} [Decidable ok] {k k' : Effect}
    (hk : ok → Matched R k k') : Matched R (s.needMState ok k) ((s.withCells c g).needMState ok k') :=
  .raiseIf fun h => hk (Classical.not_not.mp h)

theorem Matched.needStream {R : State → State → Prop} {k k' : Effect} (hk : s.cw.ready = true → Matched R k k') :
    Matched R (s.needStream k) ((s.withCells c g).needStream k') :=
  .raiseIf fun h => hk (by simpa using h)

theorem SameShown.raised (h : SameShown s c g) (e : CmdError) : Agree (s.raised e) ((s.withCells c g).raised e) :=
  agree_iff.mpr ⟨c, g, rfl, h⟩

theorem agree_complete {t t' : State} (h : Agree t t') : Agree t.complete t'.complete := by
  obtain ⟨c, g, rfl, hs⟩ := agree_iff.mp h
  exact agree_iff.mpr ⟨c, g, rfl, hs⟩

theorem agree_settleOverrun {t t' : State} (h : Agree t t') : Agree t.settleOverrun t'.settleOverrun := by
  obtain ⟨c, g, rfl, hs⟩ := agree_iff.mp h
  rcases t.settleOverrun_cases with ⟨ho, h⟩ | ⟨w, ho, he, h⟩ | ⟨w, ho, he, h⟩ <;> rw [h]
  · exact agree_iff.mpr ⟨c, g, by simp [State.settleOverrun, State.withCells, ho], hs⟩
  · exact agree_iff.mpr ⟨c, g, by simp [State.settleOverrun, State.withCells, ho, he], hs⟩
  · exact agree_iff.mpr ⟨c, g, by simp [State.settleOverrun, State.withCells, ho, he], hs⟩

theorem Matched.alike {r r' : Effect} (hs : SameShown s c g) (h : Matched Agree r r') :
    Alike (s.finish r) ((s.withCells c g).finish r') := by
  cases r with
  | ok t =>
    cases r' with
    | ok t' => exact ⟨_, _, rfl, rfl, agree_complete h⟩
    | error e => exact h.elim
  | error e =>
    cases r' with
    | ok t' => exact h.elim
    | error e' => exact ⟨_, _, rfl, rfl, h ▸ hs.raised e⟩

/-! ### The writes of the commands -/

theorem SameShown.reg (h : SameShown s c g) (rd : Reg) {v v' : Word} (hv : v' = v) :
    Agree (s.setReg rd v) ((s.withCells c g).setReg rd v') :=
  agree_iff.mpr ⟨c, g, hv ▸ rfl, h⟩

theorem SameShown.poly (h : SameShown s c g) (pd : PReg) (q : List Byte) :
    Agree (s.setPoly pd q) ((s.withCells c g).setPoly pd q) :=
  agree_iff.mpr ⟨c, g, rfl, h⟩

theorem SameShown.buffer (h : SameShown s c g) (b : List Bool) :
    Agree (s.setBuffer b) ((s.withCells c g).setBuffer b) :=
  agree_iff.mpr ⟨c, g, rfl, nofun, h.2⟩

theorem Paired.stream_eq (h : Paired s c g) (hr : s.cw.ready = true) : (s.withCells c g).stream = s.stream :=
  List.map_congr_left fun k hk => h.shown.1 hr k (List.mem_range.mp hk)

/-- RS_ENCODE writes every byte it shows. -/
theorem Paired.setStream (h : Paired s c g) (S : List Byte) :
    Agree (s.setStream S) ((s.withCells c g).setStream S) := by
  refine agree_iff.mpr ⟨_, g, rfl, fun _ k hk => ?_, h.shown.2⟩
  have hlt : 0 ≤ k ∧ k < 0 + S.length := by
    rw [State.setStream_cw, BitVec.toNat_ofNat] at hk
    omega
  show Memory.read _ (Memory.writeRun _ c 0 S) k = Memory.read _ (Memory.writeRun _ s.cw.cells 0 S) k
  rw [Memory.read_writeRun h.cwmWf, Memory.read_writeRun h.cwmWf', if_pos hlt, if_pos hlt]

theorem Paired.square (h : Paired s c g) (hm : s.mx.mstate ≠ .none) : SquareAgree s.side s.mx.cells g :=
  ⟨h.matWf, h.matWf', h.shown.2 hm⟩

/-- A placement command agrees when its cells do. -/
theorem SameShown.grid (h : SameShown s c g) {G G' : Grid} (hG : SquareAgree s.side G G') (m : MState) :
    Agree (s.setGrid G m) ((s.withCells c g).setGrid G' m) :=
  agree_iff.mpr ⟨c, G', rfl, h.1, fun _ => hG.cells⟩

theorem agree_markTest {t t' : State} (h : Agree t t') (b : Bool) : Agree (t.markTest b) (t'.markTest b) := by
  obtain ⟨c, g, rfl, hs⟩ := agree_iff.mp h
  exact agree_iff.mpr ⟨c, g, rfl, hs⟩

theorem Paired.built (h : Paired s c g) (hr : s.cw.ready = true) (t : Bool) (m : Nat) :
    SquareAgree (sideOf s.conf.ver.toNat) (s.built t m) ((s.withCells c g).built t m) := by
  unfold State.built
  rw [h.stream_eq hr]
  exact .build h.matWf h.matWf' h.shaped.ver _ m t _

theorem Paired.side_eq (h : Paired s c g) (hm : s.mx.mstate ≠ .none) : s.side = sideOf s.conf.ver.toNat :=
  (h.shaped.matrix hm).2

theorem Paired.trial_eq (h : Paired s c g) (hr : s.cw.ready = true) : (s.withCells c g).trial = s.trial :=
  funext fun m => (h.built hr true m).score s.inst.n4Mode

/-- The matrix that a build leaves shows the same. -/
theorem Paired.shown_built (h : Paired s c g) (hr : s.cw.ready = true) {t : State} (hcw : t.cw = s.cw) {b : Bool}
    {m : Nat} (hmx : t.mx = s.buildMatrix b m) : SameShown t c ((s.withCells c g).built b m) := by
  unfold SameShown State.cwm cell State.side
  rw [hcw, hmx]
  refine ⟨h.shown.1, fun _ r k hs hk => (h.built hr b m).cells r k ?_ ?_⟩
  · exact hs.trans_eq (side_toNat h.shaped.ver)
  · exact hk.trans_eq (side_toNat h.shaped.ver)

theorem Paired.build (h : Paired s c g) (hr : s.cw.ready = true) (t : Bool) :
    Agree { s with mx := s.buildMatrix t s.conf.mask.toNat }
      { s.withCells c g with mx := (s.withCells c g).buildMatrix t s.conf.mask.toNat } :=
  agree_iff.mpr ⟨c, _, rfl, h.shown_built (t := { s with mx := s.buildMatrix t _ }) hr rfl rfl⟩

theorem Paired.selected (h : Paired s c g) (hr : s.cw.ready = true) (trials : List ScoreRegs) :
    Agree (s.selected trials) ((s.withCells c g).selected trials) :=
  agree_iff.mpr ⟨c, _, rfl, h.shown_built (t := s.selected trials) hr rfl rfl⟩

theorem Paired.scored (h : Paired s c g) (hm : s.mx.mstate ≠ .none) :
    Agree { s with score := scoreOf s.inst.n4Mode s.side s.mx.cells, mx := { s.mx with mstate := .scored } }
      { s.withCells c g with
        score := scoreOf s.inst.n4Mode s.side g
        mx := { (s.withCells c g).mx with mstate := .scored } } := by
  rw [(h.square hm).score]
  exact agree_iff.mpr ⟨c, g, rfl, h.shown.1, fun _ => h.shown.2 hm⟩

/-- Every command does the same on states that agree. -/
theorem exec_alike (h : Paired s c g) (i : Instr) : Alike (exec i s) (exec i (s.withCells c g)) := by
  have hs := h.shown
  cases i with
  | nop => exact Matched.alike (r := .ok s) (r' := .ok (s.withCells c g)) hs (agree_iff.mpr ⟨c, g, rfl, hs⟩)
  | li rd imm | lui rd imm | gfExpi rd imm =>
    exact Matched.alike (r := .ok _) (r' := .ok _) hs (hs.reg rd rfl)
  | add rd ra rb | sub rd ra rb | xor rd ra rb =>
    exact Matched.alike (r := .ok _) (r' := .ok _) hs (hs.reg rd rfl)
  | rdsr rd off => exact Matched.alike (r := .ok _) (r' := .ok _) hs (hs.reg rd rfl)
  | gfExp rd ra => exact Matched.alike (r := .ok _) (r' := .ok _) hs (hs.reg rd rfl)
  | pLen rd pa => exact Matched.alike (r := .ok _) (r' := .ok _) hs (hs.reg rd rfl)
  | gfLog rd ra => exact Matched.alike hs (.bind (m := glog (s.uintReg ra)) fun l => hs.reg rd rfl)
  | gfMul rd ra rb => exact Matched.alike hs (.bind fun p => hs.reg rd rfl)
  | pGet rd pa rb => exact Matched.alike hs (.raiseIf fun _ => hs.reg rd rfl)
  | bbGetbit rd ra | bbGetbyte rd ra | bchFmt rd ra | bchVer rd ra =>
    exact Matched.alike hs (.raiseIf fun _ => hs.reg rd rfl)
  | tblQ rd ra sel k => exact Matched.alike hs (.raiseIf fun _ => .bind fun x => hs.reg rd rfl)
  | cwRd rd ra =>
    exact Matched.alike hs (.needStream fun hr => .raiseIf fun hk =>
      hs.reg rd (congrArg _ (hs.1 hr _ (Nat.not_le.mp hk))))
  | mRead rd ra rb =>
    exact Matched.alike hs (.needMState fun hm => .raiseIf fun hk =>
      hs.reg rd (congrArg (fun x : MCell => x.code.setWidth 32) (hs.2 hm _ _
        (Nat.not_le.mp fun h => hk (.inl h)) (Nat.not_le.mp fun h => hk (.inr h)))))
  | maskq rd ra rb => exact Matched.alike hs (.raiseIf fun _ => .raiseIf fun _ => hs.reg rd rfl)
  | pClr pd => exact Matched.alike (r := .ok _) (r' := .ok _) hs (hs.poly pd _)
  | pCopy pd pa => exact Matched.alike (r := .ok _) (r' := .ok _) hs (hs.poly pd _)
  | pPushi pd imm => exact Matched.alike hs (.bind fun q => hs.poly pd q)
  | pPush pd ra => exact Matched.alike hs (.raiseIf fun _ => .bind fun q => hs.poly pd q)
  | pNorm pd shift => exact Matched.alike hs (.bind fun q => hs.poly pd q)
  | pMul pd pa pb | pMod pd pa pb => exact Matched.alike hs (.bind fun q => hs.poly pd q)
  | pGen pd ra => exact Matched.alike hs (.bind fun q => hs.poly pd q)
  | setver imm | setecl imm =>
    exact Matched.alike hs (.raiseIf fun _ => agree_iff.mpr ⟨c, g, rfl, nofun, fun hne => absurd rfl hne⟩)
  | setmask imm =>
    exact Matched.alike hs (.raiseIf fun _ => agree_iff.mpr ⟨c, g, rfl, hs.1, fun hne => absurd rfl hne⟩)
  | bbClr => exact Matched.alike (r := .ok _) (r' := .ok _) hs (hs.buffer [])
  | bbPut n imm => exact Matched.alike hs (.bind fun b => hs.buffer b)
  | bbPutr ra n => exact Matched.alike hs (.bind fun b => hs.buffer b)
  | bbFinal => exact Matched.alike hs (.needVer fun _ => .bind fun b => hs.buffer b)
  | rsEncode => exact Matched.alike hs (.needVer fun _ => .raiseIf fun _ => .bind fun S => h.setStream S)
  | mInit =>
    refine Matched.alike hs (.needVer fun _ => agree_iff.mpr ⟨c, _, rfl, hs.1, fun _ r k hr hk => ?_⟩)
    have hlt := side_toNat h.shaped.ver
    exact (SquareAgree.clear h.matWf h.matWf' _).cells r k (hr.trans_eq hlt) (hk.trans_eq hlt)
  | mProbes =>
    exact Matched.alike hs (.needMState fun hm => hs.grid ((h.square (hm.trans_ne nofun)).placeAll _) _)
  | mAlign =>
    exact Matched.alike hs (.needMState fun hm =>
      hs.grid ((h.square (hm.trans_ne nofun)).align h.shaped.ver (h.side_eq (hm.trans_ne nofun))) _)
  | mTiming => exact Matched.alike hs (.needMState fun hm => hs.grid ((h.square (hm.trans_ne nofun)).placeAll _) _)
  | mTypeinfo t =>
    exact Matched.alike hs (.needMState fun hm =>
      agree_markTest (hs.grid ((h.square (hm.trans_ne nofun)).placeAll _) _) t)
  | mTypenum t =>
    exact Matched.alike hs (.needMState fun hm =>
      agree_markTest (hs.grid ((h.square (hm.trans_ne nofun)).typeNum _ t) _) t)
  | mMap =>
    refine Matched.alike hs (.needMState fun hm => .needStream fun hr => ?_)
    have hne : s.mx.mstate ≠ .none := hm.elim (·.trans_ne nofun) (·.1.trans_ne nofun)
    have hn := (h.shaped.side_bounds hne).1
    show Agree _ ((s.withCells c g).setGrid (mapData s.side s.conf.mask.toNat (s.withCells c g).stream g) .mapped)
    rw [h.stream_eq hr]
    exact hs.grid ((h.square hne).mapData (by omega) _ _) _
  | mScore =>
    exact Matched.alike hs (.needMState fun hm =>
      h.scored (hm.elim (·.trans_ne nofun) (·.trans_ne nofun)))
  | mBuild t => exact Matched.alike hs (.needVer fun _ => .needStream fun hr => h.build hr t)
  | mSelect =>
    refine Matched.alike hs (.needVer fun _ => .needStream fun hr => ?_)
    show Agree _ ((s.withCells c g).selected ((List.range 8).map (s.withCells c g).trial))
    rw [h.trial_eq hr]
    exact h.selected hr _

/-! ### Every turn does the same -/

theorem Alike.afterCommand {o o' : Outcome} (h : Alike o o') : Alike (afterCommand o) (afterCommand o') := by
  obtain ⟨t, t', rfl, rfl, ha⟩ := h
  exact ⟨_, _, rfl, rfl, agree_settleOverrun ha⟩

theorem runCommand_alike (h : Paired s c g) : Alike (runCommand s) (runCommand (s.withCells c g)) := by
  unfold runCommand
  rw [State.withCells_cmd]
  split
  · exact (exec_alike h _).afterCommand
  · exact Alike.afterCommand ⟨_, _, rfl, rfl, h.shown.raised _⟩

theorem blockTurn_alike (h : Paired s c g) : Alike (blockTurn s) (blockTurn (s.withCells c g)) := by
  cases hb : s.busy with
  | false => exact ⟨s, _, blockTurn_idle hb, blockTurn_idle hb, agree_iff.mpr ⟨c, g, rfl, h.shown⟩⟩
  | true =>
    rw [blockTurn_busy hb, blockTurn_busy (s := s.withCells c g) hb]
    exact runCommand_alike h

theorem SameShown.writeCmd (h : SameShown s c g) (w : Word) :
    Agree (s.writeCmd w) ((s.withCells c g).writeCmd w) := by
  have hd := SameData.writeCmd s w
  refine agree_iff.mpr ⟨c, g, s.withCells_writeCmd c g w, ?_⟩
  unfold SameShown State.cwm cell State.side
  rw [hd.cw, hd.mx]
  exact h

theorem SameShown.busWrite (h : SameShown s c g) (addr : Nat) (w : Word) :
    Agree (s.busWrite addr w) ((s.withCells c g).busWrite addr w) := by
  have hsame : Agree s (s.withCells c g) := agree_iff.mpr ⟨c, g, rfl, h⟩
  unfold State.busWrite
  rw [State.withCells_select, State.withCells_outside]
  split
  · exact hsame
  · split
    · exact hsame
    · split
      · exact h.writeCmd w
      · split
        · unfold State.writeCtrl
          split
          · exact agree_refl _
          · exact hsame
        · exact hsame

theorem SameShown.busRead (h : SameShown s c g) (addr : Nat) :
    Agree (s.busRead addr) ((s.withCells c g).busRead addr) := by
  unfold State.busRead
  rw [State.withCells_select]
  split
  · exact agree_iff.mpr ⟨c, g, rfl, h⟩
  · exact agree_iff.mpr ⟨c, g, rfl, h⟩

theorem SameShown.setRstN (h : SameShown s c g) (level : Bool) :
    Agree (s.setRstN level) ((s.withCells c g).setRstN level) := by
  cases level with
  | true => exact agree_iff.mpr ⟨c, g, rfl, h⟩
  | false => exact agree_refl _

theorem step_alike (h : Paired s c g) : Alike (step s) (step (s.withCells c g)) := by
  have hpop : Paired s.popTurn c g :=
    ⟨h.shaped.congr ⟨rfl, rfl, rfl, rfl, rfl⟩, h.cwmWf, h.cwmWf', h.matWf, h.matWf', h.shown⟩
  unfold step
  rw [State.withCells_outside]
  split
  · exact blockTurn_alike h
  · exact blockTurn_alike hpop
  · exact ⟨_, _, rfl, rfl, hpop.shown.busWrite _ _⟩
  · exact ⟨_, _, rfl, rfl, hpop.shown.busRead _⟩
  · exact ⟨_, _, rfl, rfl, hpop.shown.setRstN _⟩

end

/-- Settles O53: a state that agrees with s is s with other cells of CWM and MAT, and every turn is alike on the
two. -/
theorem unspecifiedContentsAreUnobservable : Obligations.UnspecifiedContentsAreUnobservable := by
  intro s s' t hm hm' hshaped ha hst
  obtain ⟨c, g, rfl, hs⟩ := agree_iff.mp ha
  obtain ⟨hc, hg⟩ := Bool.and_eq_true_iff.mp hm
  obtain ⟨hc', hg'⟩ := Bool.and_eq_true_iff.mp hm'
  obtain ⟨u, u', hu, hu', hagree⟩ := step_alike ⟨hshaped, hc, hc', hg, hg', hs⟩
  exact ⟨u', hu', next_inj (hu.symm.trans hst) ▸ hagree⟩

end Sys2Proof.Machine

/-! # The register map -/

namespace Sys2Proof.Machine

open Sys2Proof.Claims

/-! ### Words as numbers -/

theorem word_eq (x : Word) : x = BitVec.ofNat 32 x.toNat := by rw [BitVec.ofNat_toNat, BitVec.setWidth_eq]

theorem low_eq (x : BitVec 64) : x.setWidth 32 = BitVec.ofNat 32 (x.toNat % 2 ^ 32) :=
  BitVec.eq_of_toNat_eq (by simp)

theorem high_eq (x : BitVec 64) : (x >>> 32).setWidth 32 = BitVec.ofNat 32 (x.toNat / 2 ^ 32) :=
  BitVec.eq_of_toNat_eq (by simp [Nat.shiftRight_eq_div_pow])

/-- Concatenated fields as a sum, which `omega` reads. -/
theorem toNat_append_eq {m n : Nat} (x : BitVec m) (y : BitVec n) : (x ++ y).toNat = x.toNat * 2 ^ n + y.toNat := by
  rw [BitVec.toNat_append, ← Nat.shiftLeft_add_eq_or_of_lt y.isLt, Nat.shiftLeft_eq]

theorem statusWith_eq (s : State) (busy : Bool) : s.statusWith busy = BitVec.ofNat 32 (statusNat s busy) := by
  rw [word_eq (s.statusWith busy)]
  congr 1
  simp only [State.statusWith, toNat_append_eq, statusNat, MState.code_toNat, BitVec.toNat_ofNat, BitVec.toNat_ofBool]
  omega

theorem cfg_eq (s : State) : s.cfg = BitVec.ofNat 32 (cfgNat s) := by
  rw [word_eq s.cfg]
  congr 1
  simp only [State.cfg, toNat_append_eq, cfgNat, BitVec.toNat_ofNat, BitVec.toNat_ofBool]
  cases s.inst.n4Mode <;> simp only [n4Bit, Bool.toNat_true, Bool.toNat_false] <;> omega

theorem ErrCode.code_toNat (c : ErrCode) : c.code.toNat = errorCode c := by cases c <;> rfl

/-! ### The table -/

section
variable (s : State) (busy : Bool)

theorem regTable_selLow (m : Fin 8) :
    (regTable s busy).lookup (0x050 + 8 * m.val) = some (s.sel.selScore[m].toNat % 2 ^ 32) := by
  fin_cases m <;> rfl

theorem regTable_selHigh (m : Fin 8) :
    (regTable s busy).lookup (0x054 + 8 * m.val) = some (s.sel.selScore[m].toNat / 2 ^ 32) := by
  fin_cases m <;> rfl

theorem regTable_reg (k : Fin 16) : (regTable s busy).lookup (0x0C0 + 4 * k.val) = some (s.reg k).toNat := by
  fin_cases k <;> rfl

/-- Every offset the table lists is below 0x04C, or among the selection scores or the registers. -/
theorem regTable_lookup_reserved {off : Nat} (h : 0x04C ≤ off) (hsel : ¬ (0x050 ≤ off ∧ off < 0x090))
    (hreg : ¬ (0x0C0 ≤ off ∧ off < 0x100)) : (regTable s busy).lookup off = none := by
  refine List.lookup_eq_none_iff.mpr fun p hp => ?_
  have hkey : p.1 ∈ (regTable s busy).map Prod.fst := List.mem_map_of_mem hp
  have hkeys : ∀ k ∈ (regTable s busy).map Prod.fst,
      k < 0x04C ∨ (0x050 ≤ k ∧ k < 0x090) ∨ (0x0C0 ≤ k ∧ k < 0x100) := by
    show ∀ k ∈ (regTable State.reset false).map Prod.fst, _
    decide
  have hk := hkeys _ hkey
  have hne : off ≠ p.1 := by omega
  simpa using hne

/-- The registers below 0x04C, in the order of R40's table. -/
theorem readReg_fixed {k : Nat} (h : k < 19) : s.readReg busy (4 * k) = regMap s busy (4 * k) := by
  interval_cases k
  · rfl
  · exact statusWith_eq s busy
  · exact (BitVec.ofNat_toNat _ _).symm.trans (congrArg _ s.error.code.code_toNat)
  · exact word_eq s.error.cmd
  · exact word_eq s.error.info
  · exact word_eq s.error.cnt
  · exact word_eq s.cmdCnt
  · exact cfg_eq s
  · exact (BitVec.ofNat_toNat _ s.mx.side).symm
  · rfl
  · exact (BitVec.ofNat_toNat _ s.cw.len).symm
  · exact word_eq s.score.pen1
  · exact word_eq s.score.pen2
  · exact word_eq s.score.pen3
  · exact word_eq s.score.pen4num
  · exact (BitVec.ofNat_toNat _ s.score.dark).symm
  · exact low_eq s.score.score
  · exact high_eq s.score.score
  · exact (BitVec.ofNat_toNat _ s.sel.bestMask).symm

theorem regMap_eq {off x : Nat} (h : (regTable s busy).lookup off = some x) :
    regMap s busy off = BitVec.ofNat 32 x := by
  rw [regMap, h, Option.getD_some]

theorem readReg_selLow (m : Fin 8) : s.readReg busy (0x050 + 8 * m.val) = regMap s busy (0x050 + 8 * m.val) := by
  rw [regMap_eq s busy (regTable_selLow s busy m), ← low_eq]
  fin_cases m <;> rfl

theorem readReg_selHigh (m : Fin 8) : s.readReg busy (0x054 + 8 * m.val) = regMap s busy (0x054 + 8 * m.val) := by
  rw [regMap_eq s busy (regTable_selHigh s busy m), ← high_eq]
  fin_cases m <;> rfl

theorem readReg_reg (k : Fin 16) : s.readReg busy (0x0C0 + 4 * k.val) = regMap s busy (0x0C0 + 4 * k.val) := by
  rw [regMap_eq s busy (regTable_reg s busy k), ← word_eq]
  fin_cases k <;> rfl

theorem readReg_reserved {off : Nat} (h : 0x04C ≤ off) (hsel : ¬ (0x050 ≤ off ∧ off < 0x090))
    (hreg : ¬ (0x0C0 ≤ off ∧ off < 0x100)) : s.readReg busy off = regMap s busy off := by
  rw [regMap, regTable_lookup_reserved s busy h hsel hreg, State.readReg, if_neg hsel, if_neg hreg]
  · rfl
  all_goals omega

/-- What a read of the block's registers returns is the table's content (R40). -/
theorem readReg_eq_regMap {off : Nat} (h : off % 4 = 0) : s.readReg busy off = regMap s busy off := by
  by_cases hsel : 0x050 ≤ off ∧ off < 0x090
  · have hm : (off - 0x050) / 8 < 8 := by omega
    rcases (by omega : off = 0x050 + 8 * ((off - 0x050) / 8) ∨ off = 0x054 + 8 * ((off - 0x050) / 8)) with ho | ho
    · rw [ho]; exact readReg_selLow s busy ⟨_, hm⟩
    · rw [ho]; exact readReg_selHigh s busy ⟨_, hm⟩
  · by_cases hreg : 0x0C0 ≤ off ∧ off < 0x100
    · rw [show off = 0x0C0 + 4 * ((off - 0x0C0) / 4) by omega]
      exact readReg_reg s busy ⟨(off - 0x0C0) / 4, by omega⟩
    · by_cases hlow : off < 0x04C
      · rw [show off = 4 * (off / 4) by omega]
        exact readReg_fixed s busy (by omega)
      · exact readReg_reserved s busy (by omega) hsel hreg

end

/-! ### RDSR and the host's reads -/

/-- A command that ends by writing one register writes nothing else. -/
theorem writesReg_of_finish {i : Instr} {s : State} {rd : Reg} {v : Word}
    (h : exec i s = s.finish (.ok (s.setReg rd v))) : WritesReg i s rd v := by
  refine ⟨_, h, rfl, rfl, fun e he => ?_, s.reg_setReg_self rd v, fun k hk => s.reg_setReg_other rd k v hk⟩
  cases e with
  | regs => exact absurd (List.mem_singleton.mpr rfl) he
  | polys | cwm => exact fun _ => rfl
  | mat => exact fun _ _ => rfl
  | _ => exact rfl

/-- Settles O11: RDSR reads the register map as the host does, with BUSY = 0. -/
theorem rdsrReadsTheRegisterMap : Obligations.RdsrReadsTheRegisterMap := by
  intro s rd off _ h4
  rw [← readReg_eq_regMap s false h4]
  exact writesReg_of_finish rfl

theorem select_of_selects {s : State} {addr off : Nat} (h : Selects s addr off) : s.select addr = some off := by
  obtain ⟨a, ha, rfl, rfl⟩ := h
  rw [State.select, if_pos ⟨Nat.le_add_right _ _, Nat.add_lt_add_left ha _⟩, Nat.add_sub_cancel_left]

/-- While BUSY = 0 a host read returns the table's content, and draws no free value (R40). -/
theorem readValue_idle {s : State} (hb : s.busy = false) {off : Nat} (h4 : off % 4 = 0) :
    s.drawsAt off = false ∧ s.readValue off = regMap s false off := by
  have hd : s.drawsAt off = false := by rw [State.drawsAt, hb, Bool.false_and]
  rw [State.readValue, hd, hb]
  exact ⟨rfl, readReg_eq_regMap s false h4⟩

/-- While BUSY = 1 a read of STATUS shows BUSY = 1 (R367). -/
theorem readValue_busyStatus {s : State} (hb : s.busy = true) : (s.readValue 0x004).getLsbD 0 = true := by
  have hd : s.drawsAt 0x004 = true := by rw [State.drawsAt, hb]; rfl
  rw [State.readValue, if_pos hd, if_pos rfl, BitVec.getLsbD_or, Bool.or_eq_true]
  exact .inr rfl

/-- Settles O1: the read goes through `readValue`, and only the world outside changes. -/
theorem hostReadsShowTheRegisterMap : Obligations.HostReadsShowTheRegisterMap := by
  intro s addr off rest hnext hsel
  have hs : s.popTurn.select addr = some off := select_of_selects hsel
  have h4 : off % 4 = 0 := by
    obtain ⟨a, -, -, rfl⟩ := hsel
    omega
  have hstep : step s = .next (s.popTurn.busRead addr) := by
    unfold step
    rw [hnext]
  unfold State.busRead at hstep
  rw [hs] at hstep
  have hrest : s.outside.turns.tail = rest := by rw [hnext]; rfl
  refine ⟨_, _, hstep, rfl, hrest, rfl, rfl, fun hb => ?_, fun hb ho => ?_⟩
  · obtain ⟨hd, hv⟩ := readValue_idle (s := s) hb h4
    exact ⟨hv, congrArg (fun d : Bool => s.outside.draws + d.toNat) hd⟩
  · exact ho ▸ readValue_busyStatus (s := s.popTurn) hb

end Sys2Proof.Machine

/-! # The canonical form of the memories -/

namespace Sys2Proof.Machine

open Sys2Proof.Claims

/-! ### The placements keep MAT canonical -/

section
variable {g : Grid} (hg : gridWf g = true)
include hg

theorem gridWf_alignAt (R C : Nat) : gridWf (placeAlignAt g R C) = true := by
  unfold placeAlignAt
  split
  · exact hg
  · exact gridWf_placeAll hg _

theorem gridWf_align (v : Nat) : gridWf (placeAlign v g) = true :=
  List.foldlRecOn (motive := fun g => gridWf g = true) _ _ hg fun _ hg R _ =>
    List.foldlRecOn (motive := fun g => gridWf g = true) _ _ hg fun _ hg C _ => gridWf_alignAt hg R C

theorem gridWf_typeNum (v n : Nat) (t : Bool) : gridWf (placeTypeNum v n t g) = true := by
  unfold placeTypeNum
  split
  · exact gridWf_placeAll hg _
  · exact hg

theorem gridWf_mapCells (m : Nat) (l : List (Nat × Nat)) (bs : List Bool) : gridWf (mapCells m l bs g) = true := by
  induction l generalizing g bs with
  | nil => exact hg
  | cons x l ih =>
    unfold mapCells
    split
    · exact ih (gridWf_set hg _ _ _) _
    · exact ih hg _

theorem gridWf_build (v e m : Nat) (t : Bool) (S : List Byte) : gridWf (buildCells v e m t S g) = true :=
  have hfinders := gridWf_placeAll (gridWf_clear hg (sideOf v)) _
  have htimed := gridWf_placeAll (gridWf_align hfinders v) _
  have hformat := gridWf_placeAll htimed _
  gridWf_mapCells (gridWf_typeNum hformat v (sideOf v) t) m _ _

end

/-! ### MemOk -/

theorem State.memOk_iff {s : State} :
    s.MemOk ↔ Memory.wf cwmUnwritten s.cw.cells = true ∧ gridWf s.mx.cells = true :=
  Bool.and_eq_true_iff

section
variable {s s' : State} {i : Instr}

theorem State.MemOk.congr (h : s.MemOk) (hd : SameData s s') : s'.MemOk := by
  rw [State.memOk_iff, hd.cw, hd.mx]
  exact State.memOk_iff.mp h

theorem Completion.cwm_wf (hc : Completion s i s') (h : Memory.wf cwmUnwritten s.cw.cells = true) :
    Memory.wf cwmUnwritten s'.cw.cells = true := by
  cases hc with
  | rsEncode S _ _ _ => exact Memory.wf_writeRun h 0 S
  | _ => exact h

/-- MAT is written by cell writes, guarded placements and the clearing of the square. -/
theorem Completion.mat_wf (hc : Completion s i s') (h : gridWf s.mx.cells = true) : gridWf s'.mx.cells = true := by
  cases hc with
  | mInit _ => exact gridWf_clear h _
  | mProbes _ cells | mTiming _ cells | mTypeinfo _ cells => exact (congrArg _ cells).trans (gridWf_placeAll h _)
  | mAlign _ cells => exact (congrArg _ cells).trans (gridWf_align h _)
  | mTypenum _ cells => exact (congrArg _ cells).trans (gridWf_typeNum h _ _ _)
  | mMap _ _ cells => exact (congrArg _ cells).trans (gridWf_mapCells h _ _ _)
  | mBuild _ _ | mSelect _ _ _ => exact gridWf_build h _ _ _ _ _
  | _ => exact h

theorem Completion.memOk (hc : Completion s i s') (h : s.MemOk) : s'.MemOk :=
  State.memOk_iff.mpr ((State.memOk_iff.mp h).imp hc.cwm_wf hc.mat_wf)

end

/-- Settles O55: a step leaves the memories alone, resets them, or makes the writes of one command. -/
theorem stepKeepsMemOk : Obligations.StepKeepsMemOk := by
  intro s t h hst
  rcases step_data hst with hd | ⟨p, o, rfl⟩ | ⟨s₀, i, s', hd₀, hc, hd⟩
  · exact h.congr hd
  · exact resetOf_memWf p o
  · exact (hc.memOk (h.congr hd₀)).congr hd

end Sys2Proof.Machine

/-! # The host's writes -/

namespace Sys2Proof.Machine

open Sys2Proof.Claims

section
variable {s : State} {w : Word}

/-! ### A CMD write (R63, R335, R337) -/

theorem State.writeCmd_idle (he : s.error.err = false) (hb : s.busy = false) :
    s.writeCmd w = { s with cmd := w, busy := true } := by
  simp [State.writeCmd, he, hb]

theorem State.writeCmd_busy (he : s.error.err = false) (hb : s.busy = true) (ho : s.overrun = none) :
    s.writeCmd w = { s with overrun := some w } := by
  simp [State.writeCmd, he, hb, ho]

theorem State.writeCmd_halted (he : s.error.err = true) : s.writeCmd w = s := by
  simp [State.writeCmd, he]

/-! ### The bus -/

/-- While RST_N = 1 the offset that the address selects says what a write does (R61, R62). -/
theorem State.busWrite_of_select {addr off : Nat} (hr : s.outside.rstN = true) (hsel : s.select addr = some off) :
    s.busWrite addr w = if off = 0x100 then s.writeCmd w else if off = 0x104 then s.writeCtrl w else s := by
  simp [State.busWrite, hr, hsel]

theorem step_write {addr : Nat} {rest : List Turn} (h : NextTurn s (.write addr w) rest) :
    step s = .next (s.popTurn.busWrite addr w) := by
  unfold step
  rw [h]

end

/-- Settles O2: the write selects its offset on the state less this turn, and only CMD and CTRL act there. -/
theorem hostWritesReachOnlyCmdAndCtrl : Obligations.HostWritesReachOnlyCmdAndCtrl := by
  intro s addr off w rest hnext hsel hr
  have hs : s.popTurn.select addr = some off := select_of_selects hsel
  refine ⟨_, step_write hnext, ?_⟩
  rw [State.busWrite_of_select (s := s.popTurn) hr hs]
  refine ⟨fun ho he hb => ?_, fun ho he hb hover => ?_, fun ho he => ?_, fun hcmd hctrl => ?_⟩
  · exact (if_pos ho).trans (State.writeCmd_idle he hb)
  · exact (if_pos ho).trans (State.writeCmd_busy he hb hover)
  · exact (if_pos ho).trans (State.writeCmd_halted he)
  · exact (if_neg hcmd).trans (if_neg hctrl)

end Sys2Proof.Machine

/-! # How a command ends, and the step that runs it -/

namespace Sys2Proof.Machine

open Sys2Proof.Claims

/-! ### What no completing command writes -/

section
variable {s s' : State} {i : Instr}

theorem Completion.inst_eq (h : Completion s i s') : s'.inst = s.inst := by cases h <;> rfl
theorem Completion.cmd_eq (h : Completion s i s') : s'.cmd = s.cmd := by cases h <;> rfl
theorem Completion.overrun_eq (h : Completion s i s') : s'.overrun = s.overrun := by cases h <;> rfl
theorem Completion.cmdCnt_eq (h : Completion s i s') : s'.cmdCnt = s.cmdCnt := by cases h <;> rfl

end

/-- An error writes the error record alone (R333). -/
theorem raisedFrom_raised (s : State) (e : CmdError) : RaisedFrom s (s.raised e) e.code e.info := by
  refine ⟨rfl, rfl, rfl, fun x hx => ?_⟩
  cases x with
  | error => exact absurd rfl hx
  | regs | polys | cwm => exact fun _ => rfl
  | mat => exact fun _ _ => rfl
  | _ => rfl

/-- Settles O46: a command's two ends, and what a completion leaves as it was. -/
theorem everyCommandCompletesOrRaises : Obligations.EveryCommandCompletesOrRaises := by
  intro i s
  rcases exec_ends i s with ⟨s', hc, he⟩ | ⟨e, hra, he⟩
  · refine .inl ⟨_, he, congrArg (· + 1) hc.cmdCnt_eq, rfl, fun x hx => ?_, trivial⟩
    cases x with
    | error => exact hc.error_eq
    | params => exact hc.inst_eq
    | cmd => exact hc.cmd_eq
    | overrun => exact hc.overrun_eq
    | outside => exact hc.outside_eq
    | _ => exact absurd (by decide) hx
  · exact .inr ⟨e.code, e.info, hra, _, he, raisedFrom_raised s e⟩

/-! ### The block's turn -/

theorem State.popTurn_of_nil {s : State} (h : s.outside.turns = []) : s.popTurn = s := by
  unfold State.popTurn
  rw [h, List.tail_nil, ← h]

theorem step_block {s : State} (h : BlockNext s) : step s = blockTurn s.popTurn := by
  rcases h with h | ⟨rest, h⟩
  · rw [State.popTurn_of_nil h]
    unfold step
    rw [h]
  · unfold step
    rw [h]

theorem runCommand_decoded {s : State} {i : Instr} (h : decode s.cmd = .ok i) :
    runCommand s = afterCommand (exec i s) := by
  unfold runCommand
  rw [h]

theorem State.settleOverrun_none {s : State} (h : s.overrun = none) : s.settleOverrun = s := by
  unfold State.settleOverrun
  rw [h]

/-- A step on the block's turn runs the command in execution (R63, R68). -/
theorem step_decoded {s : State} {i : Instr} (hnext : BlockNext s) (hb : s.busy = true)
    (hdec : decode s.cmd = .ok i) : step s = afterCommand (exec i s.popTurn) := by
  rw [step_block hnext, blockTurn_busy (s := s.popTurn) hb, runCommand_decoded (s := s.popTurn) hdec]

/-- Settles O9: the second part is the first at the state that holds the table's word. -/
theorem stepRunsTheDecodedCommand : Obligations.StepRunsTheDecodedCommand := by
  refine ⟨fun s i hnext hb hdec => ?_, fun s w i hdec => ?_⟩
  · have hstep := step_decoded hnext hb hdec
    refine ⟨hstep, fun t ht hover => ?_⟩
    rw [hstep, ht, afterCommand, State.settleOverrun_none hover]
  · have hcmd : (s.withFetchWord 32 w).cmd = BitVec.ofNat 32 w :=
      BitVec.eq_of_toNat_eq (by simp [State.withFetchWord])
    exact step_decoded (.inl rfl) rfl (hcmd ▸ hdec)

end Sys2Proof.Machine

/-! # The encoding

`decode_encode` is one direction of the round trip. The other, and the legality of words, come from one walk over the
decoder's rows: `decode_answers` says that a legal word decodes to a well-formed command whose word it is, and that
any other word is refused. -/

namespace Sys2Proof

open Sys2Proof.Machine Sys2Proof.Claims

/-! ### Fields read back from a word

Each field is below its bound, and a word is the word of its format with its own fields, where the bits that the format
fixes as 0 are 0 (R81 to R84). -/

section
variable {w : Word} {lo n : Nat}

theorem bits_lt : bits w lo n < 2 ^ n := Nat.mod_lt _ (Nat.two_pow_pos n)

@[simp] theorem reg_rdField : (reg (rdField w)).val = rdField w := Nat.mod_eq_of_lt bits_lt
@[simp] theorem reg_raField : (reg (raField w)).val = raField w := Nat.mod_eq_of_lt bits_lt
@[simp] theorem reg_rbField : (reg (rbField w)).val = rbField w := Nat.mod_eq_of_lt bits_lt
@[simp] theorem immField_mod : immField w % 65536 = immField w := Nat.mod_eq_of_lt bits_lt
@[simp] theorem byte_mod : bits w lo 8 % 256 = bits w lo 8 := Nat.mod_eq_of_lt bits_lt
@[simp] theorem countField_mod : countField w % 32 = countField w := Nat.mod_eq_of_lt bits_lt

@[simp] theorem flag_toNat : (bits w 0 1 == 1).toNat = bits w 0 1 := by
  have : bits w 0 1 < 2 ^ 1 := bits_lt
  interval_cases bits w 0 1 <;> rfl

theorem preg_of_polyOk {f : Nat} (h : polyOk f = true) : (preg f).val = f := Nat.mod_eq_of_lt (of_decide_eq_true h)

theorem opField_eq : opField w = w.toNat / 2 ^ 24 := Nat.mod_eq_of_lt (by omega)
theorem immField_eq : immField w = w.toNat % 65536 := by simp only [immField, bits]; omega
theorem lowByte_eq : bits w 0 8 = immField w % 256 := by simp only [immField, bits]; omega
theorem highByte_eq : bits w 8 8 = immField w / 256 := by simp only [immField, bits]; omega

theorem immField_eq_bytes : immField w = bits w 8 8 * 256 + bits w 0 8 := by
  rw [lowByte_eq, highByte_eq]
  omega

theorem immField_eq_lowByte (h : bits w 8 8 = 0) : immField w = bits w 0 8 := by
  rw [immField_eq_bytes, h]
  omega

theorem immField_eq_flag (h : bits w 1 15 = 0) : immField w = bits w 0 1 := by
  simp only [immField, bits] at *
  omega

theorem wordZ_fields (h : restField w = 0) : wordR (opField w) 0 0 0 = w := by
  apply BitVec.eq_of_toNat_eq
  simp only [restField, bits, wordR, opField, BitVec.toNat_ofNat] at *
  omega

theorem wordR_fields (h : lowField w = 0) : wordR (opField w) (rdField w) (raField w) (rbField w) = w := by
  apply BitVec.eq_of_toNat_eq
  simp only [lowField, bits, wordR, opField, rdField, raField, rbField, BitVec.toNat_ofNat] at *
  omega

theorem wordI_fields (w : Word) : wordI (opField w) (rdField w) (raField w) (immField w) = w := by
  apply BitVec.eq_of_toNat_eq
  simp only [bits, wordI, opField, rdField, raField, immField, BitVec.toNat_ofNat]
  omega

theorem wordB_fields (h : gapField w = 0) : wordB (opField w) (countField w) (immField w) = w := by
  apply BitVec.eq_of_toNat_eq
  simp only [gapField, bits, wordB, opField, countField, immField, BitVec.toNat_ofNat] at *
  omega

/-! ### Decoding the word of a command -/

theorem checked_of_wf {i : Instr} (h : i.wf = true) : checked true true i = .ok i := by simp [checked, h]

/-- The decoder reads each operand back from its field: one group of cases for each format, and those whose immediate
is made of smaller operands apart. -/
theorem decode_encode (i : Instr) (h : i.wf = true) : decode (encode i) = .ok i := by
  cases i with
  | nop | bbClr | bbFinal | rsEncode | mInit | mProbes | mAlign | mTiming | mMap | mScore | mSelect => rfl
  | add | sub | xor | gfMul | mRead | maskq | gfExp | gfLog | bbGetbit | bbGetbyte | cwRd | bchFmt | bchVer
  | pClr | pPush | pGen | pCopy | pMul | pMod | pLen | pGet =>
    simp [decode, encode, Instr.opcode, opField_wordR, rdField_wordR, raField_wordR, rbField_wordR, lowField_wordR,
      preg_lt, formR, checked_of_wf h]
  | li _ imm | lui _ imm | gfExpi _ imm | rdsr _ imm | setver imm | setecl imm | setmask imm | pNorm _ imm
  | bbPutr _ imm =>
    simp [decode, encode, Instr.opcode, opField_wordI, rdField_wordI, raField_wordI, immField_wordI, imm.isLt, preg_lt,
      formI, checked_of_wf h]
  | pPushi _ imm =>
    simp [decode, encode, Instr.opcode, opField_wordI, rdField_wordI, raField_wordI, immField_wordI, byte_lt, preg_lt,
      formI, checked_of_wf h, lowByte_eq, highByte_eq, Nat.div_eq_of_lt imm.isLt, Nat.mod_eq_of_lt imm.isLt]
  | tblQ _ _ sel k =>
    have himm : k.toNat * 256 + sel.toNat < 65536 := tblImm_lt sel k
    have hsel : (k.toNat * 256 + sel.toNat) % 256 = sel.toNat := by omega
    have hk : (k.toNat * 256 + sel.toNat) / 256 = k.toNat := by omega
    simp [decode, encode, Instr.opcode, opField_wordI, rdField_wordI, raField_wordI, immField_wordI, himm, formI,
      checked_of_wf h, lowByte_eq, highByte_eq, hsel, hk]
  | mTypeinfo t | mTypenum t | mBuild t => cases t <;> rfl
  | bbPut n imm =>
    simp [decode, encode, Instr.opcode, opField_wordB, countField_wordB, gapField_wordB, immField_wordB, n.isLt,
      imm.isLt, formI, checked_of_wf h]

/-! ### Zero fields as masks

A field of bits [23:0] is 0 when the word meets its mask in no bit; several fields make the union of their masks. -/

theorem bits_eq_zero_iff_getLsbD : bits w lo n = 0 ↔ ∀ k < n, w.getLsbD (lo + k) = false := by
  simp only [bits, ← Nat.shiftRight_eq_div_pow, Nat.eq_iff_testBit_eq, Nat.testBit_mod_two_pow, BitVec.getLsbD,
    Nat.testBit_shiftRight, Nat.zero_testBit, Bool.and_eq_false_imp, decide_eq_true_eq]

theorem bits_eq_zero_iff (h : lo + n ≤ 24) :
    bits w lo n = 0 ↔ w.setWidth 24 &&& (BitVec.allOnes n).setWidth 24 <<< lo = 0#24 := by
  rw [bits_eq_zero_iff_getLsbD]
  constructor
  · intro hk
    refine BitVec.eq_of_getLsbD_eq fun j hj => ?_
    have := hk (j - lo)
    grind
  · intro h0 k hk
    have := congrArg (·.getLsbD (lo + k)) h0
    grind

/-- A polynomial field is 0..3 when its upper two bits are 0 (R86). -/
theorem polyOk_bits : polyOk (bits w lo 4) = true ↔ bits w (lo + 2) 2 = 0 := by
  rw [polyOk, decide_eq_true_eq]
  simp only [bits, pow_add, ← Nat.div_div_eq_div_mul]
  omega

theorem restField_mask : restField w = 0 ↔ w.setWidth 24 &&& 0xFFFFFF#24 = 0#24 := bits_eq_zero_iff (by decide)
theorem rdField_mask : rdField w = 0 ↔ w.setWidth 24 &&& 0xF00000#24 = 0#24 := bits_eq_zero_iff (by decide)
theorem raField_mask : raField w = 0 ↔ w.setWidth 24 &&& 0x0F0000#24 = 0#24 := bits_eq_zero_iff (by decide)
theorem rbField_mask : rbField w = 0 ↔ w.setWidth 24 &&& 0x00F000#24 = 0#24 := bits_eq_zero_iff (by decide)
theorem lowField_mask : lowField w = 0 ↔ w.setWidth 24 &&& 0x000FFF#24 = 0#24 := bits_eq_zero_iff (by decide)
theorem gapField_mask : gapField w = 0 ↔ w.setWidth 24 &&& 0x070000#24 = 0#24 := bits_eq_zero_iff (by decide)
theorem flagBits_mask : bits w 1 15 = 0 ↔ w.setWidth 24 &&& 0x00FFFE#24 = 0#24 := bits_eq_zero_iff (by decide)
theorem highByte_mask : bits w 8 8 = 0 ↔ w.setWidth 24 &&& 0x00FF00#24 = 0#24 := bits_eq_zero_iff (by decide)

theorem rdPoly_mask : polyOk (rdField w) = true ↔ w.setWidth 24 &&& 0xC00000#24 = 0#24 :=
  polyOk_bits.trans (bits_eq_zero_iff (by decide))
theorem raPoly_mask : polyOk (raField w) = true ↔ w.setWidth 24 &&& 0x0C0000#24 = 0#24 :=
  polyOk_bits.trans (bits_eq_zero_iff (by decide))
theorem rbPoly_mask : polyOk (rbField w) = true ↔ w.setWidth 24 &&& 0x00C000#24 = 0#24 :=
  polyOk_bits.trans (bits_eq_zero_iff (by decide))

theorem and_masks {x a b : BitVec 24} : (x &&& a = 0#24 ∧ x &&& b = 0#24) ↔ x &&& (a ||| b) = 0#24 := by
  rw [BitVec.and_or_distrib_left, BitVec.or_eq_zero_iff]

theorem byte_eq_zero : BitVec.ofNat 8 (bits w lo 8) = 0#8 ↔ bits w lo 8 = 0 := by simp [← BitVec.toNat_inj]

end

/-! ### The decoder's answer, row by row of R87's table -/

/-- The answer `r` fits the word: a legal word decodes to a well-formed command whose word it is, and any other word is
refused (R88, R90). -/
def Answers (w : Word) (r : Except DecodeError Instr) : Prop :=
  (∃ i, r = .ok i ∧ Legal w ∧ encode i = w ∧ i.wf = true) ∨ ((∃ e, r = .error e) ∧ ¬ Legal w)

/-- R87's table has one row for an opcode. -/
theorem mem_mustBeZero {op : Nat} {z : BitVec 24} : (op, z) ∈ mustBeZero ↔ mustBeZero.lookup op = some z := by
  have single : ∀ p ∈ mustBeZero, mustBeZero.lookup p.1 = some p.2 := by decide
  refine ⟨single _, fun h => ?_⟩
  obtain ⟨l, l', he, -⟩ := List.lookup_eq_some_iff.1 h
  simp [he]

theorem selUsesK_iff : ∀ {sel : Byte}, selUsesK sel = true ↔ sel.toNat ∈ [5, 6, 7, 9] := by decide

theorem tblOk_iff {sel k : Byte} :
    tblOk sel k = true ↔ sel.toNat ≤ 11 ∧ (k.toNat ≠ 0 → sel.toNat ∈ [5, 6, 7, 9]) := by
  rw [← selUsesK_iff, tblOk, Bool.and_eq_true, Bool.or_eq_true, decide_eq_true_eq, beq_iff_eq, ← BitVec.toNat_inj,
    or_comm, or_iff_not_imp_left]
  rfl

section
variable {w : Word} {op : Nat} {z : BitVec 24} {i : Instr} {zero unused poly : Bool}

theorem legal_iff (hop : opField w = op) (hz : mustBeZero.lookup op = some z) :
    Legal w ↔ w.setWidth 24 &&& z = 0#24 ∧ inRange op w := by
  subst hop
  simp only [Legal, ← opField_eq, mem_mustBeZero, hz, Option.some.injEq, exists_eq_left']
  rfl

/-- The "range" column is empty for every other opcode. -/
theorem inRange_free (hwf : i.wf = true) (h : op ∉ [0x05, 0x31, 0x32, 0x40]) : i.wf = true ↔ inRange op w := by
  simp only [List.mem_cons, List.not_mem_nil, or_false, not_or] at h
  simp [inRange, hwf, h]

theorem checked_refuses (h : ¬ ((zero = true ∧ poly = true) ∧ i.wf = true)) : ∃ e, checked zero poly i = .error e := by
  unfold checked
  split_ifs <;> simp_all

/-- A row's answer fits when its checks on bits are the table's mask, its range check is the "range" column, and a word
that passes the checks on bits is the command's. -/
theorem checked_answers (hop : opField w = op) (hz : mustBeZero.lookup op = some z)
    (hmask : zero = true ∧ poly = true ↔ w.setWidth 24 &&& z = 0#24) (hrange : i.wf = true ↔ inRange op w)
    (hword : zero = true → poly = true → encode i = w) : Answers w (checked zero poly i) := by
  rw [Answers, legal_iff hop hz, ← hmask, ← hrange]
  by_cases h : (zero = true ∧ poly = true) ∧ i.wf = true
  · obtain ⟨⟨rfl, rfl⟩, hwf⟩ := h
    exact .inl ⟨i, checked_of_wf hwf, ⟨⟨rfl, rfl⟩, hwf⟩, hword rfl rfl, hwf⟩
  · exact .inr ⟨checked_refuses h, h⟩

theorem formZ_answers (hop : opField w = op) (hz : mustBeZero.lookup op = some 0xFFFFFF#24)
    (hrange : i.wf = true ↔ inRange op w) (hword : encode i = wordR op 0 0 0) : Answers w (formZ w i) := by
  refine checked_answers hop hz (by simp [restField_mask]) hrange fun hzero _ => ?_
  rw [hword, ← hop, wordZ_fields (eq_of_beq hzero)]

theorem formR_answers (hop : opField w = op) (hz : mustBeZero.lookup op = some z)
    (hmask : (lowField w = 0 ∧ unused = true) ∧ poly = true ↔ w.setWidth 24 &&& z = 0#24)
    (hrange : i.wf = true ↔ inRange op w)
    (hword : unused = true → poly = true → encode i = wordR op (rdField w) (raField w) (rbField w)) :
    Answers w (formR w unused poly i) := by
  refine checked_answers hop hz (by simpa using hmask) hrange fun hzero hpoly => ?_
  obtain ⟨hlow, hunused⟩ := Bool.and_eq_true_iff.1 hzero
  rw [hword hunused hpoly, ← hop, wordR_fields (eq_of_beq hlow)]

theorem formI_answers (hop : opField w = op) (hz : mustBeZero.lookup op = some z)
    (hmask : unused = true ∧ poly = true ↔ w.setWidth 24 &&& z = 0#24) (hrange : i.wf = true ↔ inRange op w)
    (hword : unused = true → poly = true → encode i = wordI op (rdField w) (raField w) (immField w)) :
    Answers w (formI unused poly i) :=
  checked_answers hop hz hmask hrange fun hunused hpoly => by rw [hword hunused hpoly, ← hop, wordI_fields]

/-- BB_PUT's row, the only one of format B (R84). -/
theorem bbPut_answers (hop : opField w = 0x31) :
    Answers w
      (formI (gapField w == 0) true (.bbPut (BitVec.ofNat 5 (countField w)) (BitVec.ofNat 16 (immField w)))) := by
  refine checked_answers hop rfl (by simp [gapField_mask]) ?_ fun hgap _ => ?_
  · simp [Instr.wf, putOk, inRange, countField, bits]
  · exact Eq.trans (by simp [encode, Instr.opcode, hop]) (wordB_fields (eq_of_beq hgap))

/-- Every row of the decoder answers rightly: one group of cases for each format. The cases are numbered as the rows
stand in `decode`. -/
theorem decode_answers (w : Word) : Answers w (decode w) := by
  unfold decode
  split <;> rename_i hop
  -- Format Z: NOP, BB_CLR, BB_FINAL, RS_ENCODE and the matrix and score commands without an operand.
  case h_1 | h_25 | h_30 | h_32 | h_36 | h_37 | h_38 | h_39 | h_42 | h_45 | h_47 =>
    exact formZ_answers hop rfl (inRange_free rfl (by decide)) rfl
  -- Format R: no command of it has a range, and the mask includes the polynomial fields' upper bits.
  case h_3 | h_4 | h_5 | h_11 | h_13 | h_14 | h_15 | h_17 | h_19 | h_20 | h_21 | h_22 | h_23 | h_24 | h_28 | h_29
  | h_33 | h_34 | h_35 | h_43 | h_44 =>
    refine formR_answers hop rfl ?_ (inRange_free rfl (by decide)) ?_
    · simp only [Bool.and_eq_true, beq_iff_eq, and_true, lowField_mask, raField_mask, rbField_mask, rdPoly_mask,
        raPoly_mask, rbPoly_mask, and_masks, BitVec.reduceOr, BitVec.ofNat_eq_ofNat]
    · simp +contextual [encode, Instr.opcode, preg_of_polyOk]
  -- Format I with an empty "range" column.
  case h_2 | h_7 | h_8 | h_9 | h_10 | h_12 | h_16 | h_18 | h_40 | h_41 | h_46 =>
    refine formI_answers hop rfl ?_ (inRange_free rfl (by decide)) ?_
    · simp only [Bool.and_eq_true, beq_iff_eq, and_true, rdField_mask, raField_mask, rdPoly_mask, flagBits_mask,
        byte_eq_zero, highByte_mask, and_masks, BitVec.reduceOr, BitVec.ofNat_eq_ofNat]
    · simp +contextual [encode, Instr.opcode, preg_of_polyOk, immField_eq_flag, immField_eq_lowByte, byte_eq_zero]
  -- RDSR, BB_PUTR and TBL_Q: format I with a range.
  case h_6 =>
    refine formI_answers hop rfl (by simp [raField_mask]) ?_ (by simp +contextual [encode, Instr.opcode])
    simp [Instr.wf, offsetOk, inRange, immField_eq]
  case h_27 =>
    refine formI_answers hop rfl (by simp [rdField_mask]) ?_ (by simp +contextual [encode, Instr.opcode])
    simp [Instr.wf, putrOk, inRange, immField_eq]
  case h_31 =>
    refine formI_answers hop rfl (by simp) ?_ (by simp [encode, Instr.opcode, immField_eq_bytes])
    simp [Instr.wf, tblOk_iff, inRange, ← immField_eq, ← lowByte_eq, ← highByte_eq]
  -- Format B.
  case h_26 => exact bbPut_answers hop
  -- An opcode that has no row.
  case h_48 =>
    refine .inr ⟨⟨_, rfl⟩, ?_⟩
    rintro ⟨z, hz, -⟩
    rw [← opField_eq] at hz
    simp_all [mustBeZero]

theorem legal_iff_decode : Legal w ↔ ∃ i, decode w = .ok i := by
  rcases decode_answers w with ⟨i, hi, hlegal, -⟩ | ⟨⟨e, he⟩, hillegal⟩
  · exact iff_of_true hlegal ⟨i, hi⟩
  · exact iff_of_false hillegal (by simp [he])

theorem decode_of_not_legal (h : ¬ Legal w) : ∃ e, decode w = .error e := by
  rcases decode_answers w with ⟨-, -, hlegal, -⟩ | ⟨he, -⟩
  · exact absurd hlegal h
  · exact he

end

/-! ### The step on an illegal word -/

section
variable {s : State} {e : DecodeError}

theorem runCommand_refused (h : decode s.cmd = .error e) :
    runCommand s = .next (s.raised illegalCommand).settleOverrun := by
  unfold runCommand
  rw [h]
  rfl

/-- A step on the block's turn raises ILLEGAL_COMMAND for a word that does not decode (R88). -/
theorem step_refused (hnext : BlockNext s) (hb : s.busy = true) (hover : s.overrun = none)
    (hdec : decode s.cmd = .error e) : step s = .next (s.popTurn.raised illegalCommand) := by
  rw [step_block hnext, blockTurn_busy (s := s.popTurn) hb, runCommand_refused (s := s.popTurn) hdec,
    State.settleOverrun_none (s := s.popTurn.raised illegalCommand) hover]

end

/-! ### The statements -/

/-- Settles O5: the decoder reads every operand back from its field. -/
theorem decodeOfEncode : Obligations.DecodeOfEncode := decode_encode

/-- Settles O6: a word that decodes is one of the legal answers. -/
theorem encodeOfDecode : Obligations.EncodeOfDecode := by
  intro w i hdec
  rcases decode_answers w with ⟨j, hj, -, hword, hwf⟩ | ⟨⟨e, he⟩, -⟩
  · cases hdec.symm.trans hj
    exact ⟨hword, hwf⟩
  · cases hdec.symm.trans he

/-- Settles O7: the decoder refuses the illegal words, and the step raises for a refused one. -/
theorem illegalWordsRaise : Obligations.IllegalWordsRaise := by
  refine ⟨fun w => legal_iff_decode, fun s hnext hb hover hillegal => ?_⟩
  obtain ⟨e, hdec⟩ := decode_of_not_legal hillegal
  exact ⟨_, step_refused hnext hb hover hdec, raisedFrom_raised _ illegalCommand⟩

/-- Settles O8: the decoder computes on each example word. -/
theorem exampleEncodings : Obligations.ExampleEncodings :=
  ⟨rfl, rfl, rfl, rfl, rfl, rfl, rfl, rfl, rfl, rfl, rfl, rfl, rfl, rfl, rfl, rfl, rfl, rfl, rfl,
    ⟨_, rfl⟩, _, rfl⟩

end Sys2Proof

/-! # The scalar and the configuration commands

What a command leaves as it was is peeled off its writes one at a time: a write leaves every element it does not name
(R100). -/

namespace Sys2Proof.Machine

open Sys2Proof.Claims

section
variable {i : Instr} {s t : State} {e : Elem}

/-! ### What single writes leave as it was -/

theorem same_refl (s : State) (e : Elem) : e.same s s := by
  cases e with
  | regs | polys | cwm => exact fun _ => rfl
  | mat => exact fun _ _ => rfl
  | _ => rfl

theorem same_complete (h : e.same s t) : e.same s t.complete := by cases e <;> exact h

theorem same_invalidateStream (he : e ≠ .cwReady) (h : e.same s t) : e.same s t.invalidateStream := by
  cases e with
  | cwReady => exact absurd rfl he
  | _ => exact h

theorem same_dropMatrix (hm : e ≠ .mstate) (hs : e ≠ .side) (h : e.same s t) : e.same s t.dropMatrix := by
  cases e with
  | mstate => exact absurd rfl hm
  | side => exact absurd rfl hs
  | _ => exact h

theorem same_setConf (c : Conf) (hver : e = .ver → c.ver = t.conf.ver) (hecl : e = .ecl → c.ecl = t.conf.ecl)
    (hmask : e = .mask → c.mask = t.conf.mask) (h : e.same s t) : e.same s { t with conf := c } := by
  cases e with
  | ver => exact (hver rfl).trans h
  | ecl => exact (hecl rfl).trans h
  | mask => exact (hmask rfl).trans h
  | _ => exact h

/-! ### How a checked command ends -/

theorem completes_of_finish {written : List Elem} {P : State → Prop} (h : exec i s = s.finish (.ok t))
    (cnt : t.cmdCnt = s.cmdCnt) (frame : ∀ e, e ∉ written → e.same s t) (post : P t.complete) :
    Completes i s written P :=
  ⟨_, h, congrArg (· + 1) cnt, rfl, fun e he => same_complete (frame e he), post⟩

variable {bad : Prop} [Decidable bad] {x : CmdError} {k : Effect}

theorem exec_of_not_bad (h : exec i s = s.finish (raiseIf bad x k)) (hok : ¬ bad) : exec i s = s.finish k :=
  h.trans (congrArg s.finish (raiseIf_neg hok x k))

theorem raises_of_bad (h : exec i s = s.finish (raiseIf bad x k)) (hbad : bad) : Raises i s x.code x.info :=
  ⟨_, h.trans (congrArg s.finish (raiseIf_pos hbad x k)), raisedFrom_raised s x⟩

end

/-! ### The results of the scalar commands -/

theorem sext32_eq (imm : BitVec 16) : sext32 imm = BitVec.ofInt 32 imm.toInt := rfl

theorem zext32_eq (imm : BitVec 16) : zext32 imm = BitVec.ofNat 32 imm.toNat := by rw [zext32, BitVec.ofNat_toNat]

theorem upper32_eq (imm : BitVec 16) : upper32 imm = BitVec.ofNat 32 (imm.toNat * 2 ^ 16) := by
  rw [upper32, zext32_eq, BitVec.shiftLeft_eq_mul_twoPow]
  bv_omega

theorem word_add_eq (a b : Word) : a + b = BitVec.ofNat 32 ((a.toNat + b.toNat) % 2 ^ 32) :=
  BitVec.eq_of_toNat_eq (by simp)

theorem word_sub_eq (a b : Word) : a - b = BitVec.ofInt 32 ((a.toNat - b.toNat : Int) % 2 ^ 32) := by
  apply BitVec.eq_of_toNat_eq
  rw [BitVec.toNat_sub, BitVec.toNat_ofInt]
  omega

/-- Settles O10: each command writes its register from the state before it, and NOP writes nothing. -/
theorem scalarCommandsComplete : Obligations.ScalarCommandsComplete := by
  intro s
  refine ⟨?nop, fun rd imm => ?li, fun rd imm => ?lui, fun rd ra rb => ⟨?add, ?sub, ?xor⟩⟩
  case nop => exact completes_of_finish rfl rfl (fun e _ => same_refl s e) trivial
  case li => exact sext32_eq imm ▸ writesReg_of_finish rfl
  case lui => exact upper32_eq imm ▸ writesReg_of_finish rfl
  case add => exact word_add_eq (s.reg ra) (s.reg rb) ▸ writesReg_of_finish rfl
  case sub => exact word_sub_eq (s.reg ra) (s.reg rb) ▸ writesReg_of_finish rfl
  case xor => exact writesReg_of_finish rfl

/-! ### The configuration commands (R107 to R109) -/

section
variable {s : State} {imm : BitVec 16}

theorem raises_badParameter {i : Instr} {limit : Nat} {k : Effect}
    (h : exec i s = s.finish (raiseIf (limit < immNat imm) { code := .badParameter, info := zext32 imm } k))
    (hlt : limit < imm.toNat) : Raises i s .badParameter (BitVec.ofNat 32 imm.toNat) :=
  zext32_eq imm ▸ raises_of_bad h hlt

theorem setver_completes (h : imm.toNat ≤ 40) :
    Completes (.setver imm) s [.ver, .mstate, .side, .cwReady] fun t =>
      t.conf.ver.toNat = imm.toNat ∧ t.mx.mstate = .none ∧ t.mx.side = 0 ∧ t.cw.ready = false := by
  refine completes_of_finish (exec_of_not_bad rfl (Nat.not_lt.mpr h)) rfl (fun e he => ?_)
    ⟨Nat.mod_eq_of_lt (Nat.lt_of_le_of_lt h (by decide)), rfl, rfl, rfl⟩
  obtain ⟨hver, hm, hs, hr⟩ : e ≠ .ver ∧ e ≠ .mstate ∧ e ≠ .side ∧ e ≠ .cwReady := by simpa using he
  exact same_invalidateStream hr <| same_dropMatrix hm hs <|
    same_setConf _ (absurd · hver) (fun _ => rfl) (fun _ => rfl) (same_refl s e)

theorem setecl_completes (h : imm.toNat ≤ 3) :
    Completes (.setecl imm) s [.ecl, .mstate, .side, .cwReady] fun t =>
      t.conf.ecl.toNat = imm.toNat ∧ t.mx.mstate = .none ∧ t.mx.side = 0 ∧ t.cw.ready = false := by
  refine completes_of_finish (exec_of_not_bad rfl (Nat.not_lt.mpr h)) rfl (fun e he => ?_)
    ⟨Nat.mod_eq_of_lt (Nat.lt_of_le_of_lt h (by decide)), rfl, rfl, rfl⟩
  obtain ⟨hecl, hm, hs, hr⟩ : e ≠ .ecl ∧ e ≠ .mstate ∧ e ≠ .side ∧ e ≠ .cwReady := by simpa using he
  exact same_invalidateStream hr <| same_dropMatrix hm hs <|
    same_setConf _ (fun _ => rfl) (absurd · hecl) (fun _ => rfl) (same_refl s e)

/-- SETMASK does not name CW_READY: a stream stays as it was (R109). -/
theorem setmask_completes (h : imm.toNat ≤ 7) :
    Completes (.setmask imm) s [.mask, .mstate, .side] fun t =>
      t.conf.mask.toNat = imm.toNat ∧ t.mx.mstate = .none ∧ t.mx.side = 0 := by
  refine completes_of_finish (exec_of_not_bad rfl (Nat.not_lt.mpr h)) rfl (fun e he => ?_)
    ⟨Nat.mod_eq_of_lt (Nat.lt_of_le_of_lt h (by decide)), rfl, rfl⟩
  obtain ⟨hmask, hm, hs⟩ : e ≠ .mask ∧ e ≠ .mstate ∧ e ≠ .side := by simpa using he
  exact same_dropMatrix hm hs <|
    same_setConf _ (fun _ => rfl) (fun _ => rfl) (absurd · hmask) (same_refl s e)

end

/-- Settles O12: a value above the range raises, and one within it completes the command. -/
theorem configurationCommands : Obligations.ConfigurationCommands :=
  fun _ _ => ⟨setver_completes, raises_badParameter rfl, setecl_completes, raises_badParameter rfl,
    setmask_completes, raises_badParameter rfl⟩

end Sys2Proof.Machine

/-! # The GF(256) engine

The field is worked out without tables: the product by `timesAlpha b` is `timesAlpha` of the product by b, so the
exponents of powers of α add, and they repeat at 255. Two readings of the tables tie them to
it: EXP is the list of the powers (`expRom_eq`), and LOG gives back their exponents (`map_logAt_powers`). -/

namespace Sys2Proof.Machine

open Sys2Proof.Claims

/-! ### Multiplication by α is linear -/

/-- A bit as a coefficient: the element or 0. -/
def scaled (c : Bool) (a : Byte) : Byte := if c then a else 0

theorem scaled_xor (c d : Bool) (a : Byte) : scaled (c ^^ d) a = scaled c a ^^^ scaled d a := by
  cases c <;> cases d <;> simp [scaled]

theorem scaled_of_xor (c : Bool) (a b : Byte) : scaled c (a ^^^ b) = scaled c a ^^^ scaled c b := by
  cases c <;> simp [scaled]

theorem xor_if_eq_scaled (acc a : Byte) (c : Bool) : (if c then acc ^^^ a else acc) = acc ^^^ scaled c a := by
  cases c <;> simp [scaled]

theorem timesAlpha_eq (a : Byte) : timesAlpha a = a <<< 1 ^^^ scaled a.msb 0x1D := rfl

theorem timesAlpha_xor (a b : Byte) : timesAlpha (a ^^^ b) = timesAlpha a ^^^ timesAlpha b := by
  simp only [timesAlpha_eq, BitVec.shiftLeft_xor_distrib, BitVec.msb_xor, scaled_xor]
  ac_rfl

theorem timesAlpha_scaled (c : Bool) (a : Byte) : timesAlpha (scaled c a) = scaled c (timesAlpha a) := by
  cases c with
  | false => exact (by decide : timesAlpha 0 = 0)
  | true => rfl

/-- α^8 = α^4 + α^3 + α^2 + 1 (R129). -/
theorem timesAlpha_eight (a : Byte) :
    timesAlpha^[8] a = timesAlpha^[4] a ^^^ timesAlpha^[3] a ^^^ timesAlpha^[2] a ^^^ a := by
  revert a
  decide

/-- The bits move up by one, and the bit that falls off comes back at the places of 0x1D. -/
theorem getLsbD_timesAlpha : ∀ b : Byte,
    (timesAlpha b).getLsbD 0 = b.getLsbD 7 ∧ (timesAlpha b).getLsbD 1 = b.getLsbD 0 ∧
    (timesAlpha b).getLsbD 2 = (b.getLsbD 1 ^^ b.getLsbD 7) ∧
    (timesAlpha b).getLsbD 3 = (b.getLsbD 2 ^^ b.getLsbD 7) ∧
    (timesAlpha b).getLsbD 4 = (b.getLsbD 3 ^^ b.getLsbD 7) ∧
    (timesAlpha b).getLsbD 5 = b.getLsbD 4 ∧
    (timesAlpha b).getLsbD 6 = b.getLsbD 5 ∧ (timesAlpha b).getLsbD 7 = b.getLsbD 6 := by
  decide

/-! ### The field product -/

/-- The product is the sum of the terms that the bits of the second operand choose. -/
theorem gmul_eq_scaled (a b : Byte) :
    gmul a b = scaled (b.getLsbD 0) a ^^^ scaled (b.getLsbD 1) (timesAlpha a) ^^^
      scaled (b.getLsbD 2) (timesAlpha^[2] a) ^^^ scaled (b.getLsbD 3) (timesAlpha^[3] a) ^^^
      scaled (b.getLsbD 4) (timesAlpha^[4] a) ^^^ scaled (b.getLsbD 5) (timesAlpha^[5] a) ^^^
      scaled (b.getLsbD 6) (timesAlpha^[6] a) ^^^ scaled (b.getLsbD 7) (timesAlpha^[7] a) := by
  simp only [gmul, xor_if_eq_scaled]
  rw [← BitVec.zero_xor (x := scaled (b.getLsbD 0) a)]
  rfl

theorem gmul_one (a : Byte) : gmul a 1 = a := by
  rw [gmul_eq_scaled]
  simp [scaled]

/-- The term of bit 7 moves to α^8 · a, whose terms are those that the bit brings back into `timesAlpha b`. -/
theorem gmul_timesAlpha (a b : Byte) : gmul a (timesAlpha b) = timesAlpha (gmul a b) := by
  have h8 : timesAlpha (timesAlpha^[7] a) = _ := timesAlpha_eight a
  obtain ⟨h0, h1, h2, h3, h4, h5, h6, h7⟩ := getLsbD_timesAlpha b
  rw [gmul_eq_scaled a b, gmul_eq_scaled, h0, h1, h2, h3, h4, h5, h6, h7]
  simp only [timesAlpha_xor, timesAlpha_scaled, h8, scaled_xor, scaled_of_xor,
    ← Function.iterate_succ_apply' timesAlpha]
  ac_rfl

/-! ### The powers of α -/

theorem iterate_timesAlpha_alphaPow (j k : Nat) : timesAlpha^[k] (alphaPow j) = alphaPow (j + k) := by
  induction k with
  | zero => rfl
  | succ k ih => rw [Function.iterate_succ_apply', ih, Nat.add_succ, alphaPow]

/-- The recurrence of R120, in the field. -/
theorem alphaPow_add_eight (k : Nat) :
    alphaPow (k + 8) = alphaPow (k + 4) ^^^ alphaPow (k + 3) ^^^ alphaPow (k + 2) ^^^ alphaPow k := by
  simpa only [iterate_timesAlpha_alphaPow] using timesAlpha_eight (alphaPow k)

theorem gmul_alphaPow (j k : Nat) : gmul (alphaPow j) (alphaPow k) = alphaPow (j + k) := by
  induction k with
  | zero => exact gmul_one _
  | succ k ih => rw [alphaPow, gmul_timesAlpha, ih, Nat.add_succ, alphaPow]

theorem iterate_timesAlpha_one (k : Nat) : timesAlpha^[k] 1 = alphaPow k :=
  (iterate_timesAlpha_alphaPow 0 k).trans (congrArg alphaPow (Nat.zero_add k))

/-! ### The tables hold the powers and the exponents -/

theorem expRom_eq : expRom = List.iterate timesAlpha 1 256 := by decide +kernel

theorem expAt_eq_alphaPow {i : Nat} (h : i < 256) : expAt i = alphaPow i := by
  rw [expAt, expRom_eq, List.getD_eq_getElem?_getD, List.getElem?_iterate _ _ _ _ h, Option.getD_some,
    iterate_timesAlpha_one]

theorem map_logAt_powers : (List.iterate timesAlpha 1 255).map (fun b => logAt b.toNat) = List.range 255 := by
  decide +kernel

theorem logAt_alphaPow {i : Nat} (h : i < 255) : logAt (alphaPow i).toNat = i := by
  have hi := congrArg (·[i]?) map_logAt_powers
  rwa [List.getElem?_map, List.getElem?_iterate _ _ _ _ h, List.getElem?_range h, Option.map_some, Option.some.injEq,
    iterate_timesAlpha_one] at hi

/-- LOG, as the list has it, holds 0 for the value 0 too, and α^0 is not 0. -/
theorem alphaPow_ne_zero {i : Nat} (h : i < 255) : alphaPow i ≠ 0 := fun h0 => by
  have hi : logAt 0 = i := by simpa [h0] using logAt_alphaPow h
  rw [← hi] at h0
  exact absurd h0 (by decide)

theorem alphaPow_periodic : Function.Periodic alphaPow 255 := fun k => by
  have h255 : alphaPow 255 = 1 := (expAt_eq_alphaPow (i := 255) (by decide)).symm
  rw [← gmul_alphaPow, h255, gmul_one]

theorem byte_eq_ofNat (a : Byte) : BitVec.ofNat 8 a.toNat = a := by rw [BitVec.ofNat_toNat, BitVec.setWidth_eq]

theorem byte_range {a : Byte} (h : a ≠ 0) : 1 ≤ a.toNat ∧ a.toNat ≤ 255 := by bv_omega

section
variable {n : Nat} (hn : 1 ≤ n ∧ n ≤ 255)
include hn

/-- The 255 powers are different, LOG telling them apart, so each of the 255 values is one of them. -/
theorem exists_alphaPow_eq : ∃ i < 255, (alphaPow i).toNat = n := by
  have hmaps : Set.MapsTo (fun i => (alphaPow i).toNat) (Finset.range 255) (Finset.Icc 1 255) := fun i hi =>
    Finset.mem_coe.mpr (Finset.mem_Icc.mpr (byte_range (alphaPow_ne_zero (Finset.mem_range.mp hi))))
  have hinv : Set.LeftInvOn logAt (fun i => (alphaPow i).toNat) (Finset.range 255) := fun i hi =>
    logAt_alphaPow (Finset.mem_range.mp hi)
  obtain ⟨i, hi, h⟩ := Finset.surjOn_of_injOn_of_card_le _ hmaps hinv.injOn (by simp) (Finset.mem_Icc.mpr hn)
  exact ⟨i, Finset.mem_range.mp hi, h⟩

theorem logAt_lt : logAt n < 255 := by
  obtain ⟨i, hi, rfl⟩ := exists_alphaPow_eq hn
  rwa [logAt_alphaPow hi]

theorem toNat_alphaPow_logAt : (alphaPow (logAt n)).toNat = n := by
  obtain ⟨i, hi, rfl⟩ := exists_alphaPow_eq hn
  rw [logAt_alphaPow hi]

theorem alphaPow_logAt : alphaPow (logAt n) = BitVec.ofNat 8 n := by
  rw [← byte_eq_ofNat (alphaPow _), toNat_alphaPow_logAt hn]

end

/-! ### `gexp`, `glog` and the table product -/

theorem gexp_eq_alphaPow (n : Int) : gexp n = alphaPow (n % 255).toNat := expAt_eq_alphaPow (by omega)

theorem gexp_natCast (k : Nat) : gexp k = alphaPow k := by
  rw [gexp_eq_alphaPow, ← alphaPow_periodic.map_mod_nat k]
  rfl

theorem gmul_gexp (m n : Int) : gmul (gexp m) (gexp n) = gexp (m + n) := by
  simp only [gexp_eq_alphaPow, gmul_alphaPow]
  rw [← alphaPow_periodic.map_mod_nat]
  congr 1
  omega

theorem glog_ok_iff {n l : Nat} : glog n = .ok l ↔ (1 ≤ n ∧ n ≤ 255) ∧ logAt n = l := by
  by_cases h : 1 ≤ n ∧ n ≤ 255
  · simp [glog_ok h, h]
  · simp [glog_error h, h]

section
variable {a b : Nat}

theorem gfProduct_ok (ha : 1 ≤ a ∧ a ≤ 255) (hb : 1 ≤ b ∧ b ≤ 255) :
    gfProduct a b = .ok (gmul (BitVec.ofNat 8 a) (BitVec.ofNat 8 b)) := by
  have h : gfProduct a b = .ok (gexp (logAt a + logAt b)) := by simpa [ha, hb] using gfProduct_cases a b
  rw [h, ← gmul_gexp, gexp_natCast, gexp_natCast, alphaPow_logAt ha, alphaPow_logAt hb]

theorem gfProduct_error_first (ha : ¬ (1 ≤ a ∧ a ≤ 255)) :
    gfProduct a b = .error { code := .gfDomain, info := wordOf a } := by
  simpa [ha, ← and_assoc] using gfProduct_cases a b

theorem gfProduct_error_second (ha : 1 ≤ a ∧ a ≤ 255) (hb : ¬ (1 ≤ b ∧ b ≤ 255)) :
    gfProduct a b = .error { code := .gfDomain, info := wordOf b } := by
  simpa [ha, hb, ← and_assoc] using gfProduct_cases a b

end

/-! ### The laws (R120 to R124, R129) -/

theorem expAt_recurrence {i : Nat} (h8 : 8 ≤ i) (hi : i < 256) :
    expAt i = expAt (i - 4) ^^^ expAt (i - 5) ^^^ expAt (i - 6) ^^^ expAt (i - 8) := by
  obtain ⟨k, rfl⟩ := Nat.exists_eq_add_of_le' h8
  simp only [expAt_eq_alphaPow hi, expAt_eq_alphaPow (Nat.lt_of_le_of_lt (Nat.sub_le _ _) hi)]
  exact alphaPow_add_eight k

theorem exists_expAt_eq {b : Byte} (hb : b ≠ 0) : ∃ i, i < 255 ∧ expAt i = b ∧ alphaPow i = b := by
  obtain ⟨i, hi, h⟩ := exists_alphaPow_eq (byte_range hb)
  have hpow : alphaPow i = b := BitVec.eq_of_toNat_eq h
  exact ⟨i, hi, (expAt_eq_alphaPow (by omega)).trans hpow, hpow⟩

theorem expAt_ne_zero_and_logAt {i : Nat} (h : i < 255) : expAt i ≠ 0 ∧ logAt (expAt i).toNat = i := by
  rw [expAt_eq_alphaPow (by omega)]
  exact ⟨alphaPow_ne_zero h, logAt_alphaPow h⟩

theorem gexp_add_255 (n : Int) : gexp (n + 255) = gexp n := by rw [gexp, Int.add_emod_right]; rfl

theorem gmul_gexp_neg_glog {a : Byte} {l : Nat} (h : glog a.toNat = .ok l) : gmul a (gexp (-(l : Int))) = 1 := by
  obtain ⟨hn, rfl⟩ := glog_ok_iff.mp h
  have ha : gexp (logAt a.toNat) = a := by rw [gexp_natCast, alphaPow_logAt hn, byte_eq_ofNat]
  calc gmul a (gexp (-(logAt a.toNat : Int)))
      _ = gmul (gexp (logAt a.toNat)) (gexp (-(logAt a.toNat : Int))) := by rw [ha]
      _ = gexp 0 := by rw [gmul_gexp, Int.add_right_neg]
      _ = 1 := rfl

/-- Settles O13: EXP and LOG hold the powers of α and their exponents, and the rest are laws of the powers. -/
theorem fieldTablesAndLaws : Obligations.FieldTablesAndLaws := by
  refine ⟨by decide, fun i h8 hi => expAt_recurrence h8 hi, rfl, fun b hb => exists_expAt_eq hb,
    fun i hi => expAt_ne_zero_and_logAt hi, fun n h1 h255 => ⟨logAt_lt ⟨h1, h255⟩, ?exponent⟩,
    fun n => ⟨rfl, gexp_add_255 n, gexp_eq_alphaPow n⟩,
    fun a b ha hb => ?product, fun a l h => gmul_gexp_neg_glog h⟩
  case exponent =>
    have hlt : logAt n < 255 := logAt_lt ⟨h1, h255⟩
    rw [expAt_eq_alphaPow (by omega), toNat_alphaPow_logAt ⟨h1, h255⟩]
  case product => rw [gfProduct_ok (byte_range ha) (byte_range hb), byte_eq_ofNat, byte_eq_ofNat]

/-! ### How a command that runs an operation ends -/

section
variable {α : Type} {i : Instr} {s : State} {m : Except CmdError α}

theorem writesReg_of_bind_ok {rd : Reg} {v : α → Word} {a : α}
    (h : exec i s = s.finish (m >>= fun a => .ok (s.setReg rd (v a)))) (hm : m = .ok a) : WritesReg i s rd (v a) :=
  writesReg_of_finish (by rw [h, hm]; rfl)

theorem raises_of_bind_error {f : α → Effect} {e : CmdError} (h : exec i s = s.finish (m >>= f))
    (hm : m = .error e) : Raises i s e.code e.info := by
  refine ⟨_, ?_, raisedFrom_raised s e⟩
  rw [h, hm]
  rfl

end

/-! ### The commands (R125 to R128) -/

theorem wordOf_uintReg (s : State) (k : Reg) : wordOf (s.uintReg k) = s.reg k := (word_eq (s.reg k)).symm

theorem toInt_sext32 (imm : BitVec 16) : (sext32 imm).toInt = imm.toInt := BitVec.toInt_signExtend_of_le (by decide)

section
variable (s : State) (rd ra rb : Reg)

theorem exec_gfLog : exec (.gfLog rd ra) s =
    s.finish (glog (s.uintReg ra) >>= fun l => .ok (s.setReg rd (wordOf l))) := rfl

theorem exec_gfMul : exec (.gfMul rd ra rb) s =
    s.finish (gfProduct (s.uintReg ra) (s.uintReg rb) >>= fun p => .ok (s.setReg rd (p.setWidth 32))) := rfl

end

/-- Settles O14: GF_EXP and GF_EXPI are `gexp`, and GF_LOG is `glog`, whose exponent gives the value back. -/
theorem fieldExponentAndLogarithm : Obligations.FieldExponentAndLogarithm := by
  intro s rd
  refine ⟨fun ra => ?exp, fun imm => ?expi, fun ra => ⟨fun h1 h255 => ?log, fun h => ?domain⟩⟩
  case exp => exact gexp_eq_alphaPow (s.reg ra).toInt ▸ writesReg_of_finish rfl
  case expi => exact toInt_sext32 imm ▸ gexp_eq_alphaPow (sext32 imm).toInt ▸ writesReg_of_finish rfl
  case log =>
    refine ⟨_, logAt_lt ⟨h1, h255⟩, BitVec.eq_of_toNat_eq ?_, ?_⟩
    · rw [BitVec.toNat_setWidth, toNat_alphaPow_logAt ⟨h1, h255⟩, Nat.mod_eq_of_lt (s.reg ra).isLt]
    · exact writesReg_of_bind_ok (exec_gfLog s rd ra) (glog_ok ⟨h1, h255⟩)
  case domain =>
    have hn : ¬ (1 ≤ (s.reg ra).toNat ∧ (s.reg ra).toNat ≤ 255) := by omega
    exact wordOf_uintReg s ra ▸ raises_of_bind_error (exec_gfLog s rd ra) (glog_error hn)

/-- Settles O15: GF_MUL is the table product, which refuses the first operand outside 1..255. -/
theorem fieldMultiply : Obligations.FieldMultiply := by
  intro s rd ra rb ok
  have hexec := exec_gfMul s rd ra rb
  refine ⟨fun ha hb => ?product, fun ha => ?first, fun ha hb => ?second⟩
  case product =>
    rw [← BitVec.ofNat_toNat 8 (s.reg ra), ← BitVec.ofNat_toNat 8 (s.reg rb)]
    exact writesReg_of_bind_ok hexec (gfProduct_ok ha hb)
  case first => exact wordOf_uintReg s ra ▸ raises_of_bind_error hexec (gfProduct_error_first ha)
  case second => exact wordOf_uintReg s rb ▸ raises_of_bind_error hexec (gfProduct_error_second ha hb)

end Sys2Proof.Machine

/-! # The polynomial registers

The commands that copy, read, extend and normalise a polynomial register (R144 to R148, R152, R153). -/

namespace Sys2Proof.Machine

open Sys2Proof.Claims

/-! ### How a command that writes a polynomial register ends -/

section
variable {i : Instr} {s : State} {pd : PReg}

/-- A command that ends by writing one polynomial register writes nothing else. -/
theorem writesPoly_of_finish {q : List Byte} (h : exec i s = s.finish (.ok (s.setPoly pd q))) :
    WritesPoly i s pd q := by
  refine completes_of_finish h rfl (fun e he => ?_)
    ⟨s.poly_setPoly_self pd q, fun k hk => s.poly_setPoly_other pd k q hk⟩
  cases e with
  | polys => exact absurd (List.mem_singleton.mpr rfl) he
  | regs | cwm => exact fun _ => rfl
  | mat => exact fun _ _ => rfl
  | _ => rfl

theorem writesPoly_of_bind_ok {m : Except CmdError (List Byte)} {q : List Byte}
    (h : exec i s = s.finish (m >>= fun q => .ok (s.setPoly pd q))) (hm : m = .ok q) : WritesPoly i s pd q :=
  writesPoly_of_finish (by rw [h, hm]; rfl)

end

section
variable (s : State) (pd pa pb : PReg) (rd ra rb : Reg)

theorem exec_pGet : exec (.pGet rd pa rb) s =
    s.finish (raiseIf ((s.poly pa).length ≤ (s.reg rb).toNat) { code := .outOfRangeAccess, info := s.reg rb }
      (.ok (s.setReg rd (((s.poly pa).getD (s.reg rb).toNat 0).setWidth 32)))) := rfl

theorem exec_pPushi (imm : Byte) : exec (.pPushi pd imm) s =
    s.finish (polyPush (s.poly pd) imm >>= fun q => .ok (s.setPoly pd q)) := rfl

theorem exec_pPush : exec (.pPush pd ra) s =
    s.finish (raiseIf (255 < (s.reg ra).toNat) { code := .badParameter, info := s.reg ra }
      (polyPush (s.poly pd) ((s.reg ra).setWidth 8) >>= fun q => .ok (s.setPoly pd q))) := rfl

theorem exec_pNorm (shift : BitVec 16) : exec (.pNorm pd shift) s =
    s.finish (polyNew (s.poly pd) shift.toNat >>= fun q => .ok (s.setPoly pd q)) := rfl

theorem exec_pMul : exec (.pMul pd pa pb) s =
    s.finish (polyMul (s.poly pa) (s.poly pb) >>= fun q => .ok (s.setPoly pd q)) := rfl

theorem exec_pMod : exec (.pMod pd pa pb) s =
    s.finish (polyMod (s.poly pa) (s.poly pb) >>= fun q => .ok (s.setPoly pd q)) := rfl

theorem exec_pGen : exec (.pGen pd ra) s =
    s.finish (polyGen (s.reg ra).toNat >>= fun q => .ok (s.setPoly pd q)) := rfl

end

/-! ### P_CLR, P_COPY, P_LEN and P_GET -/

/-- Settles O16: P_GET's check is that the index is below the length, where the sequence has an element. -/
theorem polynomialRegisters : Obligations.PolynomialRegisters := by
  intro s pd pa rd rb
  refine ⟨writesPoly_of_finish rfl, writesPoly_of_finish rfl, writesReg_of_finish rfl, fun c hc => ?present,
    fun hnone => ?absent⟩
  case present =>
    obtain ⟨hlt, -⟩ := List.getElem?_eq_some_iff.mp hc
    have hget : (s.poly pa).getD (s.reg rb).toNat 0 = c := by rw [List.getD_eq_getElem?_getD, hc, Option.getD_some]
    exact hget ▸ writesReg_of_finish (exec_of_not_bad (exec_pGet s pa rd rb) (Nat.not_le.mpr hlt))
  case absent => exact raises_of_bad (exec_pGet s pa rd rb) (List.getElem?_eq_none_iff.mp hnone)

/-! ### P_PUSHI and P_PUSH -/

theorem polyPush_full {q : List Byte} (h : q.length = 256) (c : Byte) : polyPush q c = .error (overflow 257) :=
  raiseIf_pos h _ _

/-- Settles O17: both commands are `polyPush`, after P_PUSH's check of the value. -/
theorem polynomialPush : Obligations.PolynomialPush := by
  intro s pd
  refine ⟨fun imm => ⟨fun hroom => ?_, fun hfull => ?_⟩, fun ra => ⟨fun hbig => ?_, fun hsmall hfull => ?_,
    fun hsmall hroom => ?_⟩⟩
  · exact writesPoly_of_bind_ok (exec_pPushi s pd imm) (polyPush_ok.mpr ⟨hroom, rfl⟩)
  · exact raises_of_bind_error (exec_pPushi s pd imm) (polyPush_full hfull imm)
  · exact raises_of_bad (exec_pPush s pd ra) hbig
  · exact raises_of_bind_error (exec_of_not_bad (exec_pPush s pd ra) (Nat.not_lt.mpr hsmall)) (polyPush_full hfull _)
  · exact writesPoly_of_bind_ok (exec_of_not_bad (exec_pPush s pd ra) (Nat.not_lt.mpr hsmall))
      (polyPush_ok.mpr ⟨hroom, rfl⟩)

/-! ### P_NORM -/

theorem strip_of_head? {q : List Byte} (h : q.head? ≠ some 0) : strip q = q := by
  cases q with
  | nil => rfl
  | cons c q => exact List.dropWhile_cons_of_neg (by simpa using h)

theorem strip_zeros_append (z : Nat) {q : List Byte} (h : q.head? ≠ some 0) :
    strip (List.replicate z 0 ++ q) = q := by
  induction z with
  | zero => exact strip_of_head? h
  | succ z ih => exact ih

theorem polyNew_nil (shift : Nat) : polyNew [] shift = .error malformed := rfl

theorem polyNew_error {num : List Byte} {shift : Nat} (hne : num ≠ [])
    (h : 256 < (strip num).length + shift) : polyNew num shift = .error (overflow ((strip num).length + shift)) := by
  have hlen : (strip num ++ zeros shift).length = (strip num).length + shift := by
    rw [List.length_append, zeros, List.length_replicate]
  rw [← hlen] at h ⊢
  exact (raiseIf_neg (by simpa using hne) _ _).trans (raiseIf_pos h _ _)

theorem polyNew_of_le {num : List Byte} {shift : Nat} (hne : num ≠ [])
    (h : (strip num).length + shift ≤ 256) : polyNew num shift = .ok (strip num ++ zeros shift) := by
  refine polyNew_ok.mpr ⟨by simpa using hne, ?_, rfl⟩
  rwa [List.length_append, zeros, List.length_replicate]

/-- Settles O18: stripping such a sequence leaves the part after the zeros. -/
theorem polynomialNormalise : Obligations.PolynomialNormalise := by
  intro s pd shift
  refine ⟨fun hnil => ?empty, fun z q hp hq hne => ?_⟩
  case empty => exact raises_of_bind_error (exec_pNorm s pd shift) (hnil ▸ polyNew_nil _)
  obtain rfl : strip (s.poly pd) = q := hp ▸ strip_zeros_append z hq
  refine ⟨fun hroom => ?fits, fun hbig => ?overflows⟩
  case fits => exact writesPoly_of_bind_ok (exec_pNorm s pd shift) (polyNew_of_le hne hroom)
  case overflows => exact raises_of_bind_error (exec_pNorm s pd shift) (polyNew_error hne hbig)

end Sys2Proof.Machine

/-! # Polynomials over GF(256)

A byte is read as an element of GF(2)[x] / (x^8 + x^4 + x^3 + x^2 + 1), the ring of R129, and a coefficient sequence
as a polynomial over that ring. The reading is injective and carries XOR, `gmul`, `coef`, `productCoef` and `evalAt` to
the sum, the product, the coefficients and the values of the library's polynomials. -/

namespace Sys2Proof.Machine

open Sys2Proof.Claims Polynomial

/-! ### The ring of the field (R129) -/

/-- x^8 + x^4 + x^3 + x^2 + 1. -/
noncomputable def fieldPoly : (ZMod 2)[X] := X ^ 8 + X ^ 4 + X ^ 3 + X ^ 2 + 1

theorem natDegree_fieldPoly : fieldPoly.natDegree = 8 := by
  unfold fieldPoly
  compute_degree!

/-- GF(2)[x] modulo that polynomial. -/
abbrev FieldRing : Type := AdjoinRoot fieldPoly

/-- The class of x. -/
noncomputable def ringAlpha : FieldRing := AdjoinRoot.root fieldPoly

theorem fieldRing_nontrivial : Nontrivial FieldRing :=
  AdjoinRoot.nontrivial fieldPoly fun h => absurd (natDegree_eq_of_degree_eq_some h) (by simp [natDegree_fieldPoly])

theorem fieldRing_add_self (x : FieldRing) : x + x = 0 := by
  have h2 : (2 : FieldRing) = 0 := by
    rw [← map_ofNat (algebraMap (ZMod 2) FieldRing) 2, show (OfNat.ofNat 2 : ZMod 2) = 0 from by decide, map_zero]
  rw [← two_mul, h2, zero_mul]

theorem ringAlpha_pow_eight : ringAlpha ^ 8 = ringAlpha ^ 4 + ringAlpha ^ 3 + ringAlpha ^ 2 + 1 := by
  have h : ringAlpha ^ 8 + ringAlpha ^ 4 + ringAlpha ^ 3 + ringAlpha ^ 2 + 1 = 0 := by
    have hself : AdjoinRoot.mk fieldPoly (X ^ 8 + X ^ 4 + X ^ 3 + X ^ 2 + 1) = 0 := AdjoinRoot.mk_self
    simpa [ringAlpha] using hself
  linear_combination h - fieldRing_add_self (ringAlpha ^ 4 + ringAlpha ^ 3 + ringAlpha ^ 2 + 1)

/-! ### Bytes as elements of the ring -/

/-- A bit, read in the ring. -/
noncomputable def bitElem (c : Bool) : FieldRing := if c then 1 else 0

theorem bitElem_xor (c d : Bool) : bitElem (c ^^ d) = bitElem c + bitElem d := by
  cases c <;> cases d <;> simp [bitElem, fieldRing_add_self]

/-- A byte, read in the ring: bit i is the coefficient of x^i. -/
noncomputable def fieldElem (a : Byte) : FieldRing := ∑ i ∈ Finset.range 8, bitElem (a.getLsbD i) * ringAlpha ^ i

theorem fieldElem_xor (a b : Byte) : fieldElem (a ^^^ b) = fieldElem a + fieldElem b := by
  simp only [fieldElem, BitVec.getLsbD_xor, bitElem_xor, add_mul, Finset.sum_add_distrib]

theorem fieldElem_zero : fieldElem 0 = 0 := by simp [fieldElem, bitElem]

theorem fieldElem_one : fieldElem 1 = 1 := by simp [fieldElem, bitElem]

/-- The bit that falls off is x^8, which is what comes back at the places of 0x1D. -/
theorem fieldElem_timesAlpha (a : Byte) : fieldElem (timesAlpha a) = ringAlpha * fieldElem a := by
  obtain ⟨h0, h1, h2, h3, h4, h5, h6, h7⟩ := getLsbD_timesAlpha a
  simp only [fieldElem, Finset.sum_range_succ, Finset.sum_range_zero, h0, h1, h2, h3, h4, h5, h6, h7, bitElem_xor]
  linear_combination -bitElem (a.getLsbD 7) * ringAlpha_pow_eight

theorem fieldElem_iterate_timesAlpha (k : Nat) (a : Byte) :
    fieldElem (timesAlpha^[k] a) = ringAlpha ^ k * fieldElem a := by
  induction k with
  | zero => rw [pow_zero, one_mul]; rfl
  | succ k ih => rw [Function.iterate_succ_apply', fieldElem_timesAlpha, ih, pow_succ', mul_assoc]

theorem fieldElem_alphaPow (k : Nat) : fieldElem (alphaPow k) = ringAlpha ^ k := by
  rw [← iterate_timesAlpha_one, fieldElem_iterate_timesAlpha, fieldElem_one, mul_one]

theorem fieldElem_foldl_xor (f : Nat → Byte) (n : Nat) :
    fieldElem ((List.range n).foldl (fun acc i => acc ^^^ f i) 0) = ∑ i ∈ Finset.range n, fieldElem (f i) := by
  induction n with
  | zero => exact fieldElem_zero
  | succ n ih => rw [List.range_succ, List.foldl_append, Finset.sum_range_succ, ← ih]; exact fieldElem_xor _ _

theorem fieldElem_scaled (c : Bool) (a : Byte) : fieldElem (scaled c a) = bitElem c * fieldElem a := by
  cases c with
  | false => exact fieldElem_zero.trans (zero_mul _).symm
  | true => exact (one_mul _).symm

theorem fieldElem_gmul (a b : Byte) : fieldElem (gmul a b) = fieldElem a * fieldElem b := by
  simp only [gmul, xor_if_eq_scaled, fieldElem_foldl_xor, fieldElem_scaled, fieldElem_iterate_timesAlpha]
  rw [fieldElem, fieldElem, Finset.mul_sum]
  exact Finset.sum_congr rfl fun i _ => by ring

/-- Every other byte than 0 has an inverse (R124). -/
theorem isUnit_fieldElem {a : Byte} (h : a ≠ 0) : IsUnit (fieldElem a) := by
  have hinv := gmul_gexp_neg_glog (glog_ok (byte_range h))
  refine IsUnit.of_mul_eq_one (fieldElem (gexp (-(logAt a.toNat : Int)))) ?_
  rw [← fieldElem_gmul, hinv, fieldElem_one]

theorem fieldElem_eq_zero {a : Byte} : fieldElem a = 0 ↔ a = 0 := by
  have := fieldRing_nontrivial
  refine ⟨fun h => ?_, fun h => h ▸ fieldElem_zero⟩
  by_contra ha
  exact (isUnit_fieldElem ha).ne_zero h

theorem fieldElem_inj {a b : Byte} : fieldElem a = fieldElem b ↔ a = b := by
  refine ⟨fun h => BitVec.xor_eq_zero_iff.mp (fieldElem_eq_zero.mp ?_), congrArg fieldElem⟩
  rw [fieldElem_xor, h, fieldRing_add_self]

end Sys2Proof.Machine

/-! # Coefficient sequences as polynomials

The reading of the spec's notions `coef`, `productCoef` and `evalAt` as those of the library's polynomials. -/

namespace Sys2Proof.Machine

open Sys2Proof.Claims Polynomial

/-! ### Coefficients -/

/-- The polynomial of a sequence written most significant term first (R23). -/
noncomputable def toPolynomial : List Byte → FieldRing[X]
  | [] => 0
  | c :: p => C (fieldElem c) * X ^ p.length + toPolynomial p

theorem coef_of_length_le {p : List Byte} {k : Nat} (h : p.length ≤ k) : coef p k = 0 :=
  List.getD_eq_default _ _ (by rwa [List.length_reverse])

theorem coef_cons (c : Byte) (p : List Byte) (k : Nat) :
    coef (c :: p) k = if k = p.length then c else coef p k := by
  rcases lt_trichotomy k p.length with h | rfl | h
  · rw [if_neg h.ne, coef, coef, List.reverse_cons, List.getD_append _ _ _ _ (by rwa [List.length_reverse])]
  · rw [if_pos rfl, coef, List.reverse_cons, List.getD_append_right _ _ _ _ List.length_reverse.le,
      List.length_reverse, Nat.sub_self, List.getD_cons_zero]
  · rw [if_neg h.ne', coef_of_length_le h.le, coef_of_length_le h]

theorem exists_coef_of_mem {p : List Byte} {c : Byte} (h : c ∈ p) : ∃ k < p.length, coef p k = c := by
  obtain ⟨k, hk, rfl⟩ := List.getElem_of_mem (List.mem_reverse.mpr h)
  exact ⟨k, by rwa [List.length_reverse] at hk, List.getD_eq_getElem _ _ hk⟩

theorem head?_eq_coef {p : List Byte} {n : Nat} (h : p.length = n + 1) : p.head? = some (coef p n) := by
  cases p with
  | nil => cases h
  | cons c p => rw [coef_cons, if_pos (Nat.succ.inj h).symm, List.head?_cons]

theorem coeff_toPolynomial (p : List Byte) (k : Nat) : (toPolynomial p).coeff k = fieldElem (coef p k) := by
  induction p with
  | nil => exact fieldElem_zero.symm
  | cons c p ih =>
    rw [toPolynomial, coeff_add, coeff_C_mul_X_pow, ih, coef_cons]
    split_ifs with h
    · rw [coef_of_length_le h.ge, fieldElem_zero, add_zero]
    · rw [zero_add]

theorem fieldElem_productCoef (a b : List Byte) (k : Nat) :
    fieldElem (productCoef a b k) = (toPolynomial a * toPolynomial b).coeff k := by
  rw [productCoef, fieldElem_foldl_xor, coeff_mul, Finset.Nat.sum_antidiagonal_eq_sum_range_succ_mk]
  simp only [fieldElem_gmul, coeff_toPolynomial]

theorem coef_eq_productCoef {q a b : List Byte} (h : toPolynomial q = toPolynomial a * toPolynomial b) (k : Nat) :
    coef q k = productCoef a b k := by
  rw [← fieldElem_inj, fieldElem_productCoef, ← h, coeff_toPolynomial]

theorem fieldElem_evalAt (p : List Byte) (x : Byte) :
    fieldElem (evalAt p x) = (toPolynomial p).eval (fieldElem x) := by
  suffices h : ∀ acc, fieldElem (p.foldl (fun acc c => gmul acc x ^^^ c) acc) =
      fieldElem acc * fieldElem x ^ p.length + (toPolynomial p).eval (fieldElem x) by
    rw [evalAt, h, fieldElem_zero, zero_mul, zero_add]
  induction p with
  | nil => simp [toPolynomial]
  | cons c p ih =>
    intro acc
    rw [List.foldl_cons, ih, fieldElem_xor, fieldElem_gmul, toPolynomial, List.length_cons]
    simp only [eval_add, eval_mul, eval_C, eval_pow, eval_X]
    ring

/-! ### Sums, scalings and leading zeros -/

theorem toPolynomial_zeros_append (n : Nat) (q : List Byte) :
    toPolynomial (List.replicate n 0 ++ q) = toPolynomial q := by
  induction n with
  | zero => rfl
  | succ n ih =>
    rw [List.replicate_succ, List.cons_append, toPolynomial, fieldElem_zero, C_0, zero_mul, zero_add, ih]

theorem toPolynomial_zeros (n : Nat) : toPolynomial (zeros n) = 0 := by
  rw [zeros, ← List.append_nil (List.replicate n 0), toPolynomial_zeros_append, toPolynomial]

theorem toPolynomial_strip (q : List Byte) : toPolynomial (strip q) = toPolynomial q := by
  obtain ⟨z, hz, -⟩ := strip_spec q
  conv_rhs => rw [hz, toPolynomial_zeros_append]

/-- A coefficient added at position k from the front. -/
theorem toPolynomial_modify {r : List Byte} {k d : Nat} (p : Byte) (h : r.length = k + 1 + d) :
    toPolynomial (r.modify k (· ^^^ p)) = toPolynomial r + C (fieldElem p) * X ^ d := by
  induction r generalizing k with
  | nil => rw [List.length_nil] at h; omega
  | cons c r ih =>
    rw [List.length_cons] at h
    cases k with
    | zero =>
      have hd : r.length = d := by omega
      rw [List.modify_zero_cons, toPolynomial, toPolynomial, fieldElem_xor, C_add, hd]
      ring
    | succ k =>
      rw [List.modify_succ_cons, toPolynomial, toPolynomial, List.length_modify, ih (by omega), add_assoc]

theorem natDegree_toPolynomial_cons (c : Byte) (p : List Byte) : (toPolynomial (c :: p)).natDegree ≤ p.length := by
  refine natDegree_le_iff_coeff_eq_zero.mpr fun k hk => ?_
  rw [coeff_toPolynomial, coef_of_length_le hk, fieldElem_zero]

/-- The first coefficient of a product is the product of the first coefficients. -/
theorem coef_product_top {q : List Byte} {x y : Byte} {a b : List Byte}
    (h : toPolynomial q = toPolynomial (x :: a) * toPolynomial (y :: b)) :
    coef q (a.length + b.length) = gmul x y := by
  have htop := coeff_mul_add_eq_of_natDegree_le (natDegree_toPolynomial_cons x a) (natDegree_toPolynomial_cons y b)
  rw [← fieldElem_inj, ← coeff_toPolynomial, h, htop, fieldElem_gmul, coeff_toPolynomial, coeff_toPolynomial,
    coef_cons, if_pos rfl, coef_cons, if_pos rfl]

end Sys2Proof.Machine

/-! # The product (R141, R149)

Without a zero coefficient the two loops of R141 are plain sums of rows; each keeps the length of the register and adds
a multiple of its operand's polynomial. -/

namespace Sys2Proof.Machine

open Sys2Proof.Claims Polynomial

/-! ### The table product of two coefficients -/

/-- GF_DOMAIN(0): the log of a zero coefficient. -/
def zeroDomain : CmdError := { code := .gfDomain, info := 0 }

theorem glog_zero : glog (0 : Byte).toNat = .error zeroDomain := glog_error (by decide)

theorem glog_byte {a : Byte} (h : a ≠ 0) : glog a.toNat = .ok (logAt a.toNat) := glog_ok (byte_range h)

theorem gfProduct_byte {a b : Byte} (ha : a ≠ 0) (hb : b ≠ 0) : gfProduct a.toNat b.toNat = .ok (gmul a b) := by
  rw [gfProduct_ok (byte_range ha) (byte_range hb), byte_eq_ofNat, byte_eq_ofNat]

theorem gfProduct_zero {a b : Byte} (h : a = 0 ∨ b = 0) : gfProduct a.toNat b.toNat = .error zeroDomain := by
  by_cases ha : a = 0
  · exact ha ▸ gfProduct_error_first (by decide)
  · exact h.resolve_left ha ▸ gfProduct_error_second (byte_range ha) (by decide)

theorem gmul_ne_zero {a b : Byte} (ha : a ≠ 0) (hb : b ≠ 0) : gmul a b ≠ 0 := by
  have := fieldRing_nontrivial
  have hunit : IsUnit (fieldElem (gmul a b)) := fieldElem_gmul a b ▸ (isUnit_fieldElem ha).mul (isUnit_fieldElem hb)
  exact fun h => hunit.ne_zero (fieldElem_eq_zero.mpr h)

/-! ### The loops without the checks -/

/-- x · b added to r from position k on: `mulRow` where no coefficient is 0. -/
def addRow (x : Byte) : List Byte → Nat → List Byte → List Byte
  | [], _, r => r
  | y :: ys, k, r => addRow x ys (k + 1) (r.modify k (· ^^^ gmul x y))

/-- a · b added to r from position k on: `mulRows` where no coefficient is 0. -/
def addRows (b : List Byte) : List Byte → Nat → List Byte → List Byte
  | [], _, r => r
  | x :: xs, k, r => addRows b xs (k + 1) (addRow x b k r)

section
variable {x : Byte} {b : List Byte}

theorem mulRow_eq (hx : x ≠ 0) (hb : (0 : Byte) ∉ b) (k : Nat) (r : List Byte) :
    mulRow x b k r = .ok (addRow x b k r) := by
  induction b generalizing k r with
  | nil => rfl
  | cons y ys ih =>
    obtain ⟨hy, hys⟩ := not_or.mp (mt List.mem_cons.mpr hb)
    rw [mulRow, gfProduct_byte hx (Ne.symm hy)]
    exact ih hys _ _

theorem mulRow_zero (h : x = 0 ∨ (0 : Byte) ∈ b) (hb : b ≠ []) (k : Nat) (r : List Byte) :
    mulRow x b k r = .error zeroDomain := by
  induction b generalizing k r with
  | nil => exact absurd rfl hb
  | cons y ys ih =>
    by_cases hxy : x = 0 ∨ y = 0
    · rw [mulRow, gfProduct_zero hxy]
      rfl
    · obtain ⟨hx, hy⟩ := not_or.mp hxy
      have hys : (0 : Byte) ∈ ys := (List.mem_cons.mp (h.resolve_left hx)).resolve_left (Ne.symm hy)
      rw [mulRow, gfProduct_byte hx hy]
      exact ih (.inr hys) (List.ne_nil_of_mem hys) _ _

theorem addRow_length (x : Byte) (b : List Byte) (k : Nat) (r : List Byte) : (addRow x b k r).length = r.length := by
  induction b generalizing k r with
  | nil => rfl
  | cons y ys ih => rw [addRow, ih, List.length_modify]

theorem toPolynomial_addRow {k d : Nat} {r : List Byte} (h : r.length = k + b.length + d) :
    toPolynomial (addRow x b k r) = toPolynomial r + C (fieldElem x) * toPolynomial b * X ^ d := by
  induction b generalizing k r with
  | nil => rw [addRow, toPolynomial, mul_zero, zero_mul, add_zero]
  | cons y ys ih =>
    rw [List.length_cons] at h
    have hmod := toPolynomial_modify (r := r) (k := k) (d := ys.length + d) (gmul x y) (by omega)
    rw [addRow, ih (by rw [List.length_modify]; omega), hmod, fieldElem_gmul, C_mul, toPolynomial]
    ring

end

section
variable {a b : List Byte}

theorem mulRows_eq (ha : (0 : Byte) ∉ a) (hb : (0 : Byte) ∉ b) (k : Nat) (r : List Byte) :
    mulRows b a k r = .ok (addRows b a k r) := by
  induction a generalizing k r with
  | nil => rfl
  | cons x xs ih =>
    obtain ⟨hx, hxs⟩ := not_or.mp (mt List.mem_cons.mpr ha)
    rw [mulRows, mulRow_eq (Ne.symm hx) hb]
    exact ih hxs _ _

theorem mulRows_zero (h : (0 : Byte) ∈ a ∨ (0 : Byte) ∈ b) (ha : a ≠ []) (hb : b ≠ []) (k : Nat)
    (r : List Byte) : mulRows b a k r = .error zeroDomain := by
  induction a generalizing k r with
  | nil => exact absurd rfl ha
  | cons x xs ih =>
    by_cases hx : x = 0 ∨ (0 : Byte) ∈ b
    · rw [mulRows, mulRow_zero hx hb]
      rfl
    · obtain ⟨hx, hb0⟩ := not_or.mp hx
      have hxs : (0 : Byte) ∈ xs := (List.mem_cons.mp (h.resolve_right hb0)).resolve_left (Ne.symm hx)
      rw [mulRows, mulRow_eq hx hb0]
      exact ih (.inl hxs) (List.ne_nil_of_mem hxs) _ _

theorem addRows_length (b a : List Byte) (k : Nat) (r : List Byte) : (addRows b a k r).length = r.length := by
  induction a generalizing k r with
  | nil => rfl
  | cons x xs ih => rw [addRows, ih, addRow_length]

theorem toPolynomial_addRows {k d : Nat} {r : List Byte} (h : r.length + 1 = k + a.length + b.length + d) :
    toPolynomial (addRows b a k r) = toPolynomial r + toPolynomial a * toPolynomial b * X ^ d := by
  induction a generalizing k r with
  | nil => rw [addRows, toPolynomial, zero_mul, zero_mul, add_zero]
  | cons x xs ih =>
    rw [List.length_cons] at h
    have hrow := toPolynomial_addRow (x := x) (b := b) (k := k) (d := xs.length + d) (r := r) (by omega)
    rw [addRows, ih (by rw [addRow_length]; omega), hrow, toPolynomial]
    ring

/-! ### `multiply` -/

theorem polyMul_empty (h : a = [] ∨ b = []) : polyMul a b = .error malformed :=
  raiseIf_pos (by simpa only [List.length_eq_zero_iff] using h) _ _

variable (ha : a ≠ []) (hb : b ≠ [])
include ha hb

theorem polyMul_of_ne_nil : polyMul a b = raiseIf (256 < a.length + b.length - 1) (overflow (a.length + b.length - 1))
    (mulRows b a 0 (zeros (a.length + b.length - 1)) >>= fun r => polyNew r 0) :=
  raiseIf_neg (by simp only [List.length_eq_zero_iff, ha, hb, or_self, not_false_iff]) _ _

theorem polyMul_long (hn : 256 < a.length + b.length - 1) :
    polyMul a b = .error (overflow (a.length + b.length - 1)) :=
  (polyMul_of_ne_nil ha hb).trans (raiseIf_pos hn _ _)

variable (hn : a.length + b.length - 1 ≤ 256)
include hn

theorem polyMul_zero (h : (0 : Byte) ∈ a ∨ (0 : Byte) ∈ b) : polyMul a b = .error zeroDomain := by
  rw [polyMul_of_ne_nil ha hb, raiseIf_neg (Nat.not_lt.mpr hn), mulRows_zero h ha hb]
  rfl

/-- The product starts with the product of two coefficients that are not 0, so the final strip leaves it as it is. -/
theorem polyMul_ok (ha0 : (0 : Byte) ∉ a) (hb0 : (0 : Byte) ∉ b) :
    ∃ q, polyMul a b = .ok q ∧ q.length = a.length + b.length - 1 ∧
      toPolynomial q = toPolynomial a * toPolynomial b := by
  obtain ⟨x, xs, rfl⟩ := List.exists_cons_of_ne_nil ha
  obtain ⟨y, ys, rfl⟩ := List.exists_cons_of_ne_nil hb
  have hsum : (x :: xs).length + (y :: ys).length - 1 = xs.length + ys.length + 1 := by
    simp only [List.length_cons]
    omega
  rw [hsum] at hn ⊢
  set q := addRows (y :: ys) (x :: xs) 0 (zeros (xs.length + ys.length + 1)) with hq
  have hlen : q.length = xs.length + ys.length + 1 := by rw [hq, addRows_length, zeros, List.length_replicate]
  have hpoly : toPolynomial q = toPolynomial (x :: xs) * toPolynomial (y :: ys) := by
    rw [hq, toPolynomial_addRows (d := 0), toPolynomial_zeros, zero_add, pow_zero, mul_one]
    simp only [zeros, List.length_replicate, List.length_cons]
    omega
  have hstrip : strip q = q := by
    refine strip_of_head? ?_
    rw [head?_eq_coef hlen, coef_product_top hpoly, Ne, Option.some.injEq]
    exact gmul_ne_zero (List.ne_of_not_mem_cons ha0).symm (List.ne_of_not_mem_cons hb0).symm
  have hnew : polyNew q 0 = .ok q := by
    have hle : (strip q).length + 0 ≤ 256 := by rwa [hstrip, hlen]
    rw [polyNew_of_le (List.ne_nil_of_length_eq_add_one hlen) hle, hstrip, zeros, List.replicate_zero, List.append_nil]
  refine ⟨q, ?_, hlen, hpoly⟩
  rw [polyMul_of_ne_nil ha hb, hsum, raiseIf_neg (Nat.not_lt.mpr hn), mulRows_eq ha0 hb0]
  exact hnew

end

/-- Settles O19: `multiply` checks in this order, and its loops give the product of the polynomials. -/
theorem polynomialProduct : Obligations.PolynomialProduct := by
  intro s pd pa pb a b n
  have hexec := exec_pMul s pd pa pb
  refine ⟨fun hempty => ?empty, fun ha hb hlong => ?long, fun ha hb hn hzero => ?zero,
    fun ha hb hn ha0 hb0 => ?product⟩
  case empty => exact raises_of_bind_error hexec (polyMul_empty hempty)
  case long => exact raises_of_bind_error hexec (polyMul_long ha hb hlong)
  case zero => exact raises_of_bind_error hexec (polyMul_zero ha hb hn hzero)
  case product =>
    obtain ⟨q, hq, hlen, hpoly⟩ := polyMul_ok ha hb hn ha0 hb0
    exact ⟨q, hlen, coef_eq_productCoef hpoly, writesPoly_of_bind_ok hexec hq⟩

end Sys2Proof.Machine

/-! # The remainder (R142, R150)

Each pass takes away a multiple of the divisor that has the dividend's first coefficient, and so leaves a shorter
sequence; the multiples add up to the quotient. -/

namespace Sys2Proof.Machine

open Sys2Proof.Claims Polynomial

/-! ### One pass without the checks -/

theorem gexp_logAt {a : Byte} (h : a ≠ 0) : gexp (logAt a.toNat) = a := by
  rw [gexp_natCast, alphaPow_logAt (byte_range h), byte_eq_ofNat]

/-- The coefficient of the quotient that one pass of R142 finds: α^ratio. -/
def quotientTerm (x y : Byte) : Byte := gexp ((logAt x.toNat : Int) - (logAt y.toNat : Int))

theorem gmul_quotientTerm {x y : Byte} (hx : x ≠ 0) (hy : y ≠ 0) : gmul (quotientTerm x y) y = x := by
  calc gmul (quotientTerm x y) y
      _ = gmul (quotientTerm x y) (gexp (logAt y.toNat)) := by rw [gexp_logAt hy]
      _ = gexp (logAt x.toNat) := by rw [quotientTerm, gmul_gexp, Int.sub_add_cancel]
      _ = x := gexp_logAt hx

/-- c · b added to the front of num: `subScaled` where no coefficient of b is 0. -/
def addScaled (c : Byte) : List Byte → List Byte → List Byte
  | num, [] => num
  | [], _ :: _ => []
  | x :: num, y :: b => (x ^^^ gmul c y) :: addScaled c num b

section
variable {ratio : Int} {c : Byte} {num b : List Byte}

theorem subScaled_eq (hb : (0 : Byte) ∉ b) : subScaled ratio num b = .ok (addScaled (gexp ratio) num b) := by
  induction num, b using subScaled.induct with
  | case1 num => simp only [subScaled, addScaled]
  | case2 y b => rfl
  | case3 x num y b ih =>
    obtain ⟨hy, hb⟩ := not_or.mp (mt List.mem_cons.mpr hb)
    have hterm : gexp (logAt y.toNat + ratio) = gmul (gexp ratio) y := by
      rw [add_comm, ← gmul_gexp, gexp_logAt (Ne.symm hy)]
    rw [subScaled, glog_byte (Ne.symm hy), ih hb, addScaled, ← hterm]
    rfl

theorem subScaled_zero (hb : (0 : Byte) ∈ b) (hlen : b.length ≤ num.length) :
    subScaled ratio num b = .error zeroDomain := by
  induction num, b using subScaled.induct with
  | case1 num => exact absurd hb List.not_mem_nil
  | case2 y b => exact absurd hlen (Nat.not_succ_le_zero _)
  | case3 x num y b ih =>
    by_cases hy : y = 0
    · rw [subScaled, hy, glog_zero]
      rfl
    · have hb : (0 : Byte) ∈ b := (List.mem_cons.mp hb).resolve_left (Ne.symm hy)
      rw [subScaled, glog_byte hy, ih hb (Nat.le_of_succ_le_succ hlen)]
      rfl

theorem addScaled_length (h : b.length ≤ num.length) : (addScaled c num b).length = num.length := by
  induction num, b using subScaled.induct with
  | case1 num => simp only [addScaled]
  | case2 y b => rfl
  | case3 x num y b ih => exact congrArg (· + 1) (ih (Nat.le_of_succ_le_succ h))

theorem toPolynomial_addScaled {d : Nat} (h : num.length = b.length + d) :
    toPolynomial (addScaled c num b) = toPolynomial num + C (fieldElem c) * toPolynomial b * X ^ d := by
  induction num, b using subScaled.induct with
  | case1 num => simp only [addScaled, toPolynomial, mul_zero, zero_mul, add_zero]
  | case2 y b => rw [List.length_nil, List.length_cons] at h; omega
  | case3 x num y b ih =>
    have hlen : num.length = b.length + d := by rw [List.length_cons, List.length_cons] at h; omega
    rw [addScaled, toPolynomial, addScaled_length (by omega), ih hlen, toPolynomial, toPolynomial, fieldElem_xor,
      fieldElem_gmul, C_add, C_mul, hlen]
    ring

end

/-! ### The division -/

theorem polynomial_add_self (p : FieldRing[X]) : p + p = 0 := by
  ext k
  rw [coeff_add, fieldRing_add_self, coeff_zero]

/-- The dividend is one term of the quotient times the divisor, plus what the pass leaves of it. -/
theorem toPolynomial_pass {x y : Byte} {a b : List Byte} {d : Nat} (hx : x ≠ 0) (hy : y ≠ 0)
    (h : a.length = b.length + d) :
    toPolynomial (x :: a) = C (fieldElem (quotientTerm x y)) * X ^ d * toPolynomial (y :: b) +
      toPolynomial (addScaled (quotientTerm x y) a b) := by
  have hx' : fieldElem x = fieldElem (quotientTerm x y) * fieldElem y := by
    rw [← fieldElem_gmul, gmul_quotientTerm hx hy]
  rw [toPolynomial_addScaled h, toPolynomial, toPolynomial, hx', h, C_mul]
  linear_combination - polynomial_add_self (C (fieldElem (quotientTerm x y)) * toPolynomial b * X ^ d)

section
variable {b : List Byte}

theorem modLoop_of_lt {a : List Byte} (fuel : Nat) (h : a.length < b.length) : modLoop b fuel a = .ok a := by
  cases fuel with
  | zero => rfl
  | succ fuel => rw [modLoop, if_pos h]

variable {x y : Byte} {a : List Byte} (fuel : Nat) (hlen : b.length ≤ a.length)
include hlen

theorem modLoop_cons : modLoop (y :: b) (fuel + 1) (x :: a) =
    glog x.toNat >>= fun la => glog y.toNat >>= fun lb =>
      subScaled ((la : Int) - (lb : Int)) (x :: a) (y :: b) >>= fun num => modLoop (y :: b) fuel (strip num) :=
  if_neg (Nat.not_lt.mpr (Nat.succ_le_succ hlen))

theorem modLoop_pass (hx : x ≠ 0) (hb : (0 : Byte) ∉ y :: b) :
    modLoop (y :: b) (fuel + 1) (x :: a) = modLoop (y :: b) fuel (strip (addScaled (quotientTerm x y) a b)) := by
  have hy : y ≠ 0 := (List.ne_of_not_mem_cons hb).symm
  have hfirst : addScaled (quotientTerm x y) (x :: a) (y :: b) = 0 :: addScaled (quotientTerm x y) a b := by
    rw [addScaled, gmul_quotientTerm hx hy]
    exact congrArg (· :: _) BitVec.xor_self
  have hsub : subScaled ((logAt x.toNat : Int) - logAt y.toNat) (x :: a) (y :: b) =
      .ok (0 :: addScaled (quotientTerm x y) a b) := (subScaled_eq hb).trans (congrArg Except.ok hfirst)
  rw [modLoop_cons fuel hlen, glog_byte hx, glog_byte hy]
  exact congrArg (· >>= fun num => modLoop (y :: b) fuel (strip num)) hsub

theorem modLoop_zero (h : x = 0 ∨ (0 : Byte) ∈ y :: b) :
    modLoop (y :: b) (fuel + 1) (x :: a) = .error zeroDomain := by
  rw [modLoop_cons fuel hlen]
  by_cases hx : x = 0
  · rw [hx, glog_zero]
    rfl
  rw [glog_byte hx]
  by_cases hy : y = 0
  · rw [hy, glog_zero]
    rfl
  rw [glog_byte hy]
  have hsub : subScaled ((logAt x.toNat : Int) - logAt y.toNat) (x :: a) (y :: b) = .error zeroDomain :=
    subScaled_zero (h.resolve_left hx) (Nat.succ_le_succ hlen)
  exact congrArg (· >>= fun num => modLoop (y :: b) fuel (strip num)) hsub

end

/-- r is the remainder of a by b, with q as the quotient; q has no more coefficients than a quotient needs. -/
structure Division (a b q r : List Byte) : Prop where
  shorter : r.length < b.length
  stripped : r.head? ≠ some 0
  quotient_length : q.length ≤ a.length + 1 - b.length
  identity : toPolynomial a = toPolynomial q * toPolynomial b + toPolynomial r

/-- A dividend shorter than the divisor has the quotient 0. -/
theorem Division.of_lt {a b : List Byte} (h : a.length < b.length) (ha : a.head? ≠ some 0) : Division a b [] a where
  shorter := h
  stripped := ha
  quotient_length := Nat.zero_le _
  identity := by rw [toPolynomial, zero_mul, zero_add]

/-- A pass puts its term before the quotient of what it leaves. -/
theorem Division.pass {x y : Byte} {a b q r : List Byte} (hx : x ≠ 0) (hy : y ≠ 0) (hlen : b.length ≤ a.length)
    (h : Division (strip (addScaled (quotientTerm x y) a b)) (y :: b) q r) :
    ∃ q, Division (x :: a) (y :: b) q r := by
  obtain ⟨d, hd⟩ := Nat.exists_eq_add_of_le hlen
  have hq : q.length ≤ d := by
    have hle := (strip_length_le _).trans_eq (addScaled_length (c := quotientTerm x y) hlen)
    have := h.quotient_length
    rw [List.length_cons] at this
    omega
  have hpad : (List.replicate (d - q.length) 0 ++ q).length = d := by
    rw [List.length_append, List.length_replicate]
    omega
  refine ⟨quotientTerm x y :: (List.replicate (d - q.length) 0 ++ q), h.shorter, h.stripped, ?_, ?_⟩
  · simp only [List.length_cons, hpad]
    omega
  · have hrest := h.identity
    rw [toPolynomial_strip] at hrest
    have hquotient : toPolynomial (quotientTerm x y :: (List.replicate (d - q.length) 0 ++ q)) =
        C (fieldElem (quotientTerm x y)) * X ^ d + toPolynomial q := by
      rw [toPolynomial, hpad, toPolynomial_zeros_append]
    rw [toPolynomial_pass hx hy hd, hrest, hquotient]
    ring

theorem modLoop_ok {b : List Byte} (hb : b ≠ []) (hb0 : (0 : Byte) ∉ b) {fuel : Nat} {a : List Byte}
    (hfuel : a.length ≤ fuel) (ha : a.head? ≠ some 0) : ∃ q r, modLoop b fuel a = .ok r ∧ Division a b q r := by
  obtain ⟨y, b, rfl⟩ := List.exists_cons_of_ne_nil hb
  have hy : y ≠ 0 := (List.ne_of_not_mem_cons hb0).symm
  induction fuel generalizing a with
  | zero =>
    have hlt : a.length < (y :: b).length := Nat.lt_of_le_of_lt hfuel (Nat.succ_pos _)
    exact ⟨[], a, modLoop_of_lt 0 hlt, .of_lt hlt ha⟩
  | succ fuel ih =>
    by_cases hlt : a.length < (y :: b).length
    · exact ⟨[], a, modLoop_of_lt _ hlt, .of_lt hlt ha⟩
    cases a with
    | nil => exact absurd (Nat.succ_pos _) hlt
    | cons x a =>
      have hx : x ≠ 0 := fun h => ha (congrArg some h)
      have hlen : b.length ≤ a.length := Nat.le_of_succ_le_succ (Nat.not_lt.mp hlt)
      obtain ⟨-, -, hstripped⟩ := strip_spec (addScaled (quotientTerm x y) a b)
      have hshort := (strip_length_le _).trans_eq (addScaled_length (c := quotientTerm x y) hlen)
      obtain ⟨q, r, hr, hdiv⟩ := ih (hshort.trans (Nat.le_of_succ_le_succ hfuel)) hstripped
      obtain ⟨q', hdiv'⟩ := hdiv.pass hx hy hlen
      exact ⟨q', r, (modLoop_pass fuel hlen hx hb0).trans hr, hdiv'⟩

theorem coef_eq_of_division {a b q r : List Byte} (h : Division a b q r) (k : Nat) :
    coef a k = productCoef q b k ^^^ coef r k := by
  rw [← fieldElem_inj, fieldElem_xor, fieldElem_productCoef, ← coeff_toPolynomial, ← coeff_toPolynomial,
    ← coeff_add, h.identity]

/-! ### `mod` -/

theorem polyMod_empty (a : List Byte) : polyMod a [] = .error malformed := rfl

theorem polyMod_of_ne_nil (a : List Byte) {b : List Byte} (hb : b ≠ []) : polyMod a b = modLoop b a.length a :=
  raiseIf_neg (mt List.length_eq_zero_iff.mp hb) _ _

/-- Settles O20: the loop meets a zero coefficient in its first pass or never, and then its passes are a division. -/
theorem polynomialRemainder : Obligations.PolynomialRemainder := by
  intro s pd pa pb a b
  have hexec := exec_pMod s pd pa pb
  refine ⟨fun hb => ?empty, fun hb hlt => ?short, fun hb hlen h0 => ?zero, fun hb hlen ha hb0 => ?remainder⟩
  case empty => exact raises_of_bind_error hexec ((congrArg (polyMod a) hb).trans (polyMod_empty a))
  case short => exact writesPoly_of_bind_ok hexec ((polyMod_of_ne_nil a hb).trans (modLoop_of_lt _ hlt))
  case zero =>
    refine raises_of_bind_error hexec (e := zeroDomain) ((polyMod_of_ne_nil a hb).trans ?_)
    clear_value a b
    obtain ⟨y, b, rfl⟩ := List.exists_cons_of_ne_nil hb
    obtain ⟨x, a, rfl⟩ := List.exists_cons_of_length_pos (Nat.lt_of_lt_of_le (Nat.succ_pos _) hlen)
    exact modLoop_zero _ (Nat.le_of_succ_le_succ hlen) (h0.imp_left Option.some.inj)
  case remainder =>
    obtain ⟨q, r, hr, hdiv⟩ := modLoop_ok hb hb0 le_rfl ha
    exact ⟨q, r, hdiv.shorter, hdiv.stripped, coef_eq_of_division hdiv,
      writesPoly_of_bind_ok hexec ((polyMod_of_ne_nil a hb).trans hr)⟩

end Sys2Proof.Machine

/-! # The generator polynomial (R143, R151)

gen(n) is the product of the factors x + α^i, which vanishes at each α^i. R143's loop multiplies it by the next factor
as long as it has no zero coefficient. That it has none below degree 255 comes from comparing it with itself at αx: the
factors of g(αx) are those of g(x) up to scaling, but for one at either end. -/

namespace Sys2Proof.Machine

open Sys2Proof.Claims Polynomial

/-! ### The product of the factors -/

/-- The product of x + α^i for i below n. -/
noncomputable def genPoly (n : Nat) : FieldRing[X] := ∏ i ∈ Finset.range n, (X + C (ringAlpha ^ i))

theorem genPoly_succ (n : Nat) : genPoly (n + 1) = genPoly n * (X + C (ringAlpha ^ n)) := Finset.prod_range_succ _ n

theorem coeff_genPoly_top (n : Nat) : (genPoly n).coeff n = 1 := by
  have := fieldRing_nontrivial
  have hmonic : (genPoly n).Monic := monic_prod_of_monic _ _ fun i _ => monic_X_add_C _
  have hdeg : (genPoly n).natDegree = n := by
    rw [genPoly, natDegree_prod_of_monic _ _ fun i _ => monic_X_add_C _]
    simp only [natDegree_X_add_C, Finset.sum_const, Finset.card_range, smul_eq_mul, mul_one]
  exact (congrArg (genPoly n).coeff hdeg.symm).trans hmonic.coeff_natDegree

theorem eval_genPoly {i n : Nat} (h : i < n) : (genPoly n).eval (ringAlpha ^ i) = 0 := by
  rw [genPoly, eval_prod]
  refine Finset.prod_eq_zero (Finset.mem_range.mpr h) ?_
  rw [eval_add, eval_X, eval_C, fieldRing_add_self]

/-! ### No coefficient is 0 below degree 255 -/

/-- g(αx) (αx + α^n) = α^n g(x) (αx + 1), for g of degree n. -/
theorem genPoly_comp (n : Nat) :
    (genPoly n).comp (C ringAlpha * X) * (C ringAlpha * X + C (ringAlpha ^ n)) =
      C (ringAlpha ^ n) * genPoly n * (C ringAlpha * X + 1) := by
  induction n with
  | zero => simp [genPoly]
  | succ n ih =>
    simp only [genPoly_succ, mul_comp, add_comp, X_comp, C_comp]
    simp only [pow_succ, C_mul]
    linear_combination (C ringAlpha * X + C (ringAlpha ^ n) * C ringAlpha) * ih

theorem coeff_mul_linear (p : FieldRing[X]) (c d : FieldRing) (k : Nat) :
    (p * (C c * X + C d)).coeff (k + 1) = c * p.coeff k + d * p.coeff (k + 1) := by
  rw [mul_add, coeff_add, coeff_mul_C, ← mul_assoc, coeff_mul_X, coeff_mul_C]
  ring

/-- The comparison at x^(k+1): a zero coefficient of x^k leaves α^n (α^(k+1) + 1) times the next. -/
theorem coeff_genPoly_succ {n k : Nat} (h0 : (genPoly n).coeff k = 0) :
    ringAlpha ^ n * (ringAlpha ^ (k + 1) + 1) * (genPoly n).coeff (k + 1) = 0 := by
  have h := congrArg (coeff · (k + 1)) (genPoly_comp n)
  rw [← C_1] at h
  simp only [coeff_mul_linear, comp_C_mul_X_coeff, coeff_C_mul, h0] at h
  linear_combination h + fieldRing_add_self (ringAlpha ^ n * (genPoly n).coeff (k + 1))

theorem alphaPow_ne_one {k : Nat} (h0 : 0 < k) (hk : k < 255) : alphaPow k ≠ 1 := fun h => by
  have hlog := logAt_alphaPow hk
  rw [h, show logAt (1 : Byte).toNat = 0 from rfl] at hlog
  omega

theorem isUnit_ringAlpha_pow {n : Nat} (h : n < 255) : IsUnit (ringAlpha ^ n) :=
  fieldElem_alphaPow n ▸ isUnit_fieldElem (alphaPow_ne_zero h)

theorem isUnit_ringAlpha_pow_add_one {k : Nat} (h0 : 0 < k) (hk : k < 255) : IsUnit (ringAlpha ^ k + 1) := by
  rw [← fieldElem_alphaPow, ← fieldElem_one, ← fieldElem_xor]
  exact isUnit_fieldElem (mt BitVec.xor_eq_zero_iff.mp (alphaPow_ne_one h0 hk))

theorem coeff_genPoly_ne_zero {n k : Nat} (hn : n < 255) (hk : k ≤ n) : (genPoly n).coeff k ≠ 0 := by
  have := fieldRing_nontrivial
  induction hk using Nat.decreasingInduction with
  | self => rw [coeff_genPoly_top]; exact one_ne_zero
  | of_succ k hk ih =>
    intro h0
    have hunit := (isUnit_ringAlpha_pow hn).mul (isUnit_ringAlpha_pow_add_one (k := k + 1) (by omega) (by omega))
    exact ih (hunit.mul_right_eq_zero.mp (coeff_genPoly_succ h0))

/-! ### `gen` -/

theorem toPolynomial_one : toPolynomial [1] = 1 := by
  rw [toPolynomial, toPolynomial, fieldElem_one, C_1, one_mul, add_zero, List.length_nil, pow_zero]

theorem toPolynomial_linear (c : Byte) : toPolynomial [1, c] = X + C (fieldElem c) := by
  simp only [toPolynomial, fieldElem_one, C_1, one_mul, List.length_cons, List.length_nil, zero_add, pow_one, pow_zero,
    mul_one, add_zero]

theorem genLoop_ok {n : Nat} (hn : n ≤ 255) :
    ∃ g, genLoop n = .ok g ∧ g.length = n + 1 ∧ toPolynomial g = genPoly n := by
  induction n with
  | zero => exact ⟨[1], rfl, rfl, toPolynomial_one⟩
  | succ n ih =>
    obtain ⟨g, hg, hlen, hpoly⟩ := ih (by omega)
    have hg0 : (0 : Byte) ∉ g := fun hmem => by
      obtain ⟨k, hk, h0⟩ := exists_coef_of_mem hmem
      refine coeff_genPoly_ne_zero (n := n) (k := k) (by omega) (by omega) ?_
      rw [← hpoly, coeff_toPolynomial, h0, fieldElem_zero]
    have hfactor0 : (0 : Byte) ∉ [1, gexp n] := by
      have hne : alphaPow n ≠ 0 := alphaPow_ne_zero (by omega)
      simpa [gexp_natCast] using hne.symm
    have hfactor : toPolynomial [1, gexp n] = X + C (ringAlpha ^ n) := by
      rw [toPolynomial_linear, gexp_natCast, fieldElem_alphaPow]
    obtain ⟨q, hq, hqlen, hqpoly⟩ := polyMul_ok (a := g) (b := [1, gexp n]) (List.ne_nil_of_length_eq_add_one hlen)
      (List.cons_ne_nil _ _) (by rw [hlen]; exact Nat.succ_le_succ hn) hg0 hfactor0
    refine ⟨q, ?_, by rw [hqlen, hlen]; rfl, by rw [hqpoly, hpoly, hfactor, genPoly_succ]⟩
    rw [genLoop, hg]
    exact hq

theorem polyGen_ok {n : Nat} (hn : n ≤ 255) :
    ∃ g, polyGen n = .ok g ∧ g.length = n + 1 ∧ toPolynomial g = genPoly n := by
  obtain ⟨g, hg, h⟩ := genLoop_ok hn
  exact ⟨g, (raiseIf_neg (Nat.not_lt.mpr hn) _ _).trans hg, h⟩

theorem polyGen_large {n : Nat} (hn : 255 < n) : polyGen n = .error (overflow n) := raiseIf_pos hn _ _

/-- Settles O21: R143's loop never meets a zero coefficient, and gives the product of the factors. -/
theorem generatorPolynomial : Obligations.GeneratorPolynomial := by
  intro s pd ra
  refine ⟨fun hn => ?generator, fun hbig => ?large⟩
  case generator =>
    obtain ⟨g, hg, hlen, hpoly⟩ := polyGen_ok hn
    refine ⟨g, hlen, ?_, fun i hi => ?_, writesPoly_of_bind_ok (exec_pGen s pd ra) hg⟩
    · rw [head?_eq_coef hlen, Option.some.injEq, ← fieldElem_inj, ← coeff_toPolynomial, hpoly, coeff_genPoly_top,
        fieldElem_one]
    · rw [← fieldElem_eq_zero, fieldElem_evalAt, hpoly, fieldElem_alphaPow, eval_genPoly hi]
  case large => exact wordOf_uintReg s ra ▸ raises_of_bind_error (exec_pGen s pd ra) (polyGen_large hbig)

end Sys2Proof.Machine

/-! # The bit buffer

The commands that write BB end in one write, `State.setBuffer`, so each comes down to the bits it appends (R170 to R174,
R177 to R179); the byte view is the value of eight bits, whose bit j is the j-th from the end (R171, R175, R176). -/

namespace Sys2Proof.Machine

open Sys2Proof.Claims

/-! ### How a command that writes the buffer ends -/

section
variable {i : Instr} {s : State} {bb : List Bool} {P : State → Prop}

theorem same_setBuffer {e : Elem} (bb : List Bool) (hb : e ≠ .bb) (hr : e ≠ .cwReady) :
    e.same s (s.setBuffer bb) := by
  cases e with
  | bb => exact absurd rfl hb
  | cwReady => exact absurd rfl hr
  | regs | polys | cwm => exact fun _ => rfl
  | mat => exact fun _ _ => rfl
  | _ => rfl

/-- A command that ends by writing the buffer writes BB and CW_READY, and nothing else. -/
theorem writesBuffer_of_finish (h : exec i s = s.finish (.ok (s.setBuffer bb))) (post : P (s.setBuffer bb).complete) :
    Completes i s [.bb, .cwReady] P := by
  refine completes_of_finish h rfl (fun e he => ?_) post
  obtain ⟨hb, hr⟩ : e ≠ .bb ∧ e ≠ .cwReady := by simpa using he
  exact same_setBuffer bb hb hr

theorem writesBuffer_of_bind_ok {m : Except CmdError (List Bool)}
    (h : exec i s = s.finish (m >>= fun bb => .ok (s.setBuffer bb))) (hm : m = .ok bb)
    (post : P (s.setBuffer bb).complete) : Completes i s [.bb, .cwReady] P :=
  writesBuffer_of_finish (by rw [h, hm]; rfl) post

end

/-! ### BB_CLR, BB_PUT and BB_PUTR -/

theorem putBits_eq_msbFirst (v n : Nat) : putBits v n = msbFirst v n := putBits_eq_map v n

section
variable (bb : List Bool) (v : Nat) {n : Nat}

theorem bbPut_within (h : bb.length + n ≤ 23648) : bbPut bb v n = .ok (bb ++ msbFirst v n) :=
  bbPut_ok.mpr ⟨h, by rw [putBits_eq_msbFirst]⟩

theorem bbPut_beyond (h : 23648 < bb.length + n) :
    bbPut bb v n = .error { code := .capacityExceeded, info := wordOf (bb.length + n) } := raiseIf_pos h _ _

end

/-- A command that is a put appends the bits where they fit, and raises the length it would have reached where they do
not (R170). -/
theorem put_completes_or_raises {i : Instr} {s : State} {v n : Nat}
    (h : exec i s = s.finish (bbPut s.bb v n >>= fun bb => .ok (s.setBuffer bb))) :
    (s.bb.length + n ≤ 23648 → Completes i s [.bb, .cwReady] fun t =>
      t.bb = s.bb ++ msbFirst v n ∧ t.cw.ready = false) ∧
    (23648 < s.bb.length + n → Raises i s .capacityExceeded (BitVec.ofNat 32 (s.bb.length + n))) :=
  ⟨fun hfits => writesBuffer_of_bind_ok h (bbPut_within s.bb v hfits) ⟨rfl, rfl⟩,
    fun hlong => raises_of_bind_error h (bbPut_beyond s.bb v hlong)⟩

/-- Settles O22: BB_CLR writes the empty buffer, and BB_PUT and BB_PUTR are puts of their operands. -/
theorem bitBufferWrites : Obligations.BitBufferWrites := fun _ =>
  ⟨writesBuffer_of_finish rfl ⟨rfl, rfl⟩, fun _ _ => put_completes_or_raises rfl,
    fun _ _ => put_completes_or_raises rfl⟩

/-! ### The byte view of the buffer (R171) -/

theorem bitsValue_concat (l : List Bool) (b : Bool) : bitsValue (l ++ [b]) = Nat.bit b (bitsValue l) := by
  rw [bitsValue, List.foldl_append, Nat.bit_val]
  rfl

/-- Bit j of the value is the j-th bit of the list from its end. -/
theorem testBit_bitsValue_reverse (l : List Bool) (j : Nat) : (bitsValue l.reverse).testBit j = l.getD j false := by
  induction l generalizing j with
  | nil => exact Nat.zero_testBit j
  | cons b l ih =>
    rw [List.reverse_cons, bitsValue_concat]
    cases j with
    | zero => exact Nat.testBit_bit_zero b _
    | succ j => rw [Nat.testBit_bit_succ, ih, List.getD_cons_succ]

theorem getLsbD_bbByte (bb : List Bool) (k : Nat) {i : Nat} (h : i < 8) :
    (bbByte bb k).getLsbD (7 - i) = bb.getD (8 * k + i) false := by
  rw [bbByte, BitVec.getLsbD_ofNat, ← List.reverse_reverse (List.map _ _), testBit_bitsValue_reverse]
  have hlt : 7 - i < 8 := by omega
  have hsub : 8 - 1 - (7 - i) = i := by omega
  simp [List.getD_eq_getElem?_getD, hlt, hsub]

/-- Stream bit k is bit 7 - (k mod 8) of byte ⌊k/8⌋. -/
theorem getLsbD_bbByte_div (bb : List Bool) (k : Nat) : (bbByte bb (k / 8)).getLsbD (7 - k % 8) = bb.getD k false := by
  rw [getLsbD_bbByte bb (k / 8) (Nat.mod_lt k (by decide)), Nat.div_add_mod]

theorem byteCount_le_iff {bb : List Bool} {k : Nat} : byteCount bb ≤ k ↔ bb.length ≤ 8 * k := by
  rw [byteCount]
  omega

/-! ### BB_GETBIT and BB_GETBYTE -/

section
variable (s : State) (rd ra : Reg)

theorem exec_bbGetbit : exec (.bbGetbit rd ra) s =
    s.finish (raiseIf (s.bb.length ≤ (s.reg ra).toNat) { code := .outOfRangeAccess, info := s.reg ra }
      (.ok (s.setReg rd (wordOf (s.bb.getD (s.reg ra).toNat false).toNat)))) := rfl

theorem exec_bbGetbyte : exec (.bbGetbyte rd ra) s =
    s.finish (raiseIf (byteCount s.bb ≤ (s.reg ra).toNat) { code := .outOfRangeAccess, info := s.reg ra }
      (.ok (s.setReg rd ((bbByte s.bb (s.reg ra).toNat).setWidth 32)))) := rfl

end

theorem wordOf_bit (b : Bool) : wordOf b.toNat = if b then 1 else 0 := by cases b <;> rfl

/-- Settles O23: a read's check is that the index is below the buffer's count of bits, or of bytes. -/
theorem bitBufferReads : Obligations.BitBufferReads := by
  refine ⟨getLsbD_bbByte_div, fun s rd ra => ⟨fun b hb => ?bit, fun hout => ?bitOutside, fun hin => ?byte,
    fun hout => ?byteOutside⟩⟩
  case bit =>
    obtain ⟨hlt, -⟩ := List.getElem?_eq_some_iff.mp hb
    have hget : s.bb.getD (s.reg ra).toNat false = b := by rw [List.getD_eq_getElem?_getD, hb, Option.getD_some]
    exact wordOf_bit b ▸ hget ▸ writesReg_of_finish (exec_of_not_bad (exec_bbGetbit s rd ra) (Nat.not_le.mpr hlt))
  case bitOutside => exact raises_of_bad (exec_bbGetbit s rd ra) hout
  case byte =>
    refine ⟨bbByte s.bb (s.reg ra).toNat, fun i hi => getLsbD_bbByte s.bb (s.reg ra).toNat hi, ?_⟩
    exact writesReg_of_finish (exec_of_not_bad (exec_bbGetbyte s rd ra)
      (byteCount_le_iff.not.mpr (Nat.not_le.mpr hin)))
  case byteOutside => exact raises_of_bad (exec_bbGetbyte s rd ra) (byteCount_le_iff.mpr hout)

/-! ### BB_FINAL (R177 to R179) -/

/-- The length of the stream of n bits once the terminator has been put where 4 bits of the capacity c remain (R179). -/
def terminatedLength (c n : Nat) : Nat := if n + 4 ≤ c then n + 4 else n

theorem addTerminator_eq (c : Nat) (bb : List Bool) :
    addTerminator c bb = bb ++ List.replicate (terminatedLength c bb.length - bb.length) false := by
  unfold addTerminator terminatedLength
  split
  · rw [Nat.add_sub_cancel_left]
    rfl
  · simp

theorem padToByte_append_zeros (bb : List Bool) (z : Nat) :
    padToByte (bb ++ List.replicate z false) =
      bb ++ List.replicate ((bb.length + z + 7) / 8 * 8 - bb.length) false := by
  rw [padToByte, List.append_assoc, List.replicate_append_replicate, List.length_append, List.length_replicate]
  congr 2
  omega

/-- The terminator and the bits up to the byte boundary are zeros, together up to the next multiple of 8. -/
theorem padToByte_addTerminator (c : Nat) (bb : List Bool) :
    padToByte (addTerminator c bb) =
      bb ++ List.replicate ((terminatedLength c bb.length + 7) / 8 * 8 - bb.length) false := by
  have hle : bb.length ≤ terminatedLength c bb.length := by
    unfold terminatedLength
    split <;> omega
  rw [addTerminator_eq, padToByte_append_zeros, Nat.add_sub_cancel' hle]

/-- The k-th pad byte is the one begun with for an even k, the other for an odd k (R178). -/
theorem padBits_eq_flatMap (n : Nat) (second : Bool) :
    padBits n second =
      (List.range n).flatMap fun k => msbFirst (if k % 2 = 0 then padByte second else padByte !second) 8 := by
  induction n generalizing second with
  | zero => rfl
  | succ n ih =>
    rw [padBits, ih, List.range_succ_eq_map, List.flatMap_cons, List.flatMap_map, putBits_eq_msbFirst]
    congr 1
    refine List.flatMap_congr fun k _ => ?_
    rcases Nat.mod_two_eq_zero_or_one k with hk | hk
    · rw [if_pos hk, if_neg (by omega)]
    · rw [if_neg (by omega), if_pos (by omega), Bool.not_not]

theorem fillPads_append_zeros (c : Nat) (bb : List Bool) (z : Nat) :
    fillPads c (bb ++ List.replicate z false) = bb ++ List.replicate z false ++
      (List.range ((c - bb.length - z) / 8)).flatMap fun k => msbFirst (if k % 2 = 0 then 0xEC else 0x11) 8 := by
  rw [fillPads, padBits_eq_flatMap, List.length_append, List.length_replicate, Nat.sub_add_eq]
  rfl

theorem exec_bbFinal (s : State) : exec .bbFinal s =
    s.finish (raiseIf (s.conf.ver = 0) { code := .badParameter, info := 0 }
      (bbFinish (s.cap * 8) s.bb >>= fun bb => .ok (s.setBuffer bb))) := rfl

/-- Settles O24: the checks in order, then the bits that `final` appends. -/
theorem bitBufferFinal : Obligations.BitBufferFinal := by
  intro s
  refine ⟨fun hver => ?noVersion, fun hver hlong => ?tooLong, fun hver hfits => ?final⟩
  case noVersion => exact raises_of_bad (exec_bbFinal s) hver
  case tooLong => exact raises_of_bind_error (exec_of_not_bad (exec_bbFinal s) hver) (raiseIf_pos hlong _ _)
  case final =>
    refine writesBuffer_of_bind_ok (exec_of_not_bad (exec_bbFinal s) hver) (bbFinish_ok.mpr ⟨hfits, rfl⟩)
      ⟨rfl, final_length hfits, ?_⟩
    exact (congrArg (fillPads (s.cap * 8)) (padToByte_addTerminator (s.cap * 8) s.bb)).trans
      (fillPads_append_zeros (s.cap * 8) s.bb _)

end Sys2Proof.Machine

/-! # The host's version search

The candidates 1, 2, …, 40 are an interval, so that the first of them that fits is the least (R198). -/

namespace Sys2Proof.Machine

/-! ### The candidates -/

section
variable {p : Nat → Bool}

theorem candidates_eq_range' : (List.range Config.maxVer).map (· + 1) = List.range' 1 40 := rfl

theorem find?_candidates_eq_some {v : Nat} : ((List.range Config.maxVer).map (· + 1)).find? p = some v ↔
    1 ≤ v ∧ v ≤ 40 ∧ p v = true ∧ ∀ u, 1 ≤ u → u < v → ¬ p u = true := by
  rw [candidates_eq_range', List.find?_range'_eq_some, List.mem_range'_1]
  simp only [Bool.not_eq_true', Bool.not_eq_true]
  constructor
  · rintro ⟨hv, ⟨h1, h40⟩, hleast⟩
    exact ⟨h1, by omega, hv, hleast⟩
  · rintro ⟨h1, h40, hv, hleast⟩
    exact ⟨hv, ⟨h1, by omega⟩, hleast⟩

theorem find?_candidates_eq_none : ((List.range Config.maxVer).map (· + 1)).find? p = none ↔
    ∀ v, 1 ≤ v → v ≤ 40 → ¬ p v = true := by
  rw [candidates_eq_range', List.find?_range'_eq_none]
  simp only [Bool.not_eq_true', Bool.not_eq_true]
  exact forall₂_congr fun v _ => by rw [show v < 1 + 40 ↔ v ≤ 40 by omega]

end

/-! ### The search -/

section
variable {alnum : Config.AlnumMode} {e : Nat} {segs : List Segment}

theorem versionSearch_eq_ok {v : Nat} : versionSearch alnum e segs = .ok v ↔
    ((List.range Config.maxVer).map (· + 1)).find? (fun v => decide (segmentsBits alnum v segs ≤ capOf v e * 8)) =
      some v := by
  unfold versionSearch
  split
  · next u hu => rw [hu, Except.ok.injEq, Option.some.injEq]
  · next hn => rw [hn]; exact iff_of_false nofun nofun

theorem versionSearch_eq_error : versionSearch alnum e segs = .error .capacityExceeded ↔
    ((List.range Config.maxVer).map (· + 1)).find? (fun v => decide (segmentsBits alnum v segs ≤ capOf v e * 8)) =
      none := by
  unfold versionSearch
  split
  · next u hu => rw [hu]; exact iff_of_false nofun nofun
  · next hn => exact iff_of_true rfl hn

end

/-- Settles O25: the search is first fit over its candidates, and fails where none of them fits. -/
theorem versionSearchIsFirstFit : Obligations.VersionSearchIsFirstFit := by
  intro alnum e segs fits
  refine ⟨fun v => ?_, ?_⟩
  · rw [versionSearch_eq_ok, find?_candidates_eq_some]
    simp only [decide_eq_true_eq, fits]
  · rw [versionSearch_eq_error, find?_candidates_eq_none]
    simp only [decide_eq_true_eq, fits]

end Sys2Proof.Machine

/-! # The host's isDark

A command that the host issues on a ready block is the CMD write, which puts it in execution, the block's turn, which
runs it, and the STATUS read, which shows whether it failed (R366). `issue_completed` and `issue_failed` say this
once for every command; the loads of the operands and the M_READ then come down to what those commands write. -/

namespace Sys2Proof.Machine

open Sys2Proof.Claims

/-! ### A ready block, and the states the host's turns leave -/

/-- The block takes the next command: it is idle, has no error and no refused word, and RST_N is released (R63). -/
structure State.Ready (s : State) : Prop where
  idle : s.busy = false
  noError : s.error.err = false
  noRefused : s.overrun = none
  released : s.outside.rstN = true

/-- The state once the turns have been taken. -/
def State.turnless (s : State) : State := { s with outside := { s.outside with turns := [] } }

/-- The state once a host read has returned the word. -/
def State.shown (s : State) (w : Word) : State :=
  { s with outside := { s.outside with turns := [], readData := some w } }

theorem State.Ready.shown {s : State} (h : s.Ready) (w : Word) : (s.shown w).Ready :=
  ⟨h.idle, h.noError, h.noRefused, h.released⟩

/-- A command that writes a register leaves a ready block ready. -/
theorem State.Ready.regWritten {s : State} (h : s.Ready) (w : Word) (rd : Reg) (v : Word) :
    ((s.fetching w).setReg rd v).complete.Ready :=
  ⟨rfl, h.noError, h.noRefused, h.released⟩

section
variable {s t : State} {i : Instr}

/-! ### The turns of a command -/

/-- An offset of the window is selected by its distance from BLOCK_BASE (R61). -/
theorem State.select_offset (s : State) {off : Nat} (hlt : off < 4096) (h4 : off % 4 = 0) :
    s.select (s.inst.blockBase + off) = some off :=
  select_of_selects ⟨off, hlt, rfl, by omega⟩

theorem State.takeTurn_write (s : State) (addr : Nat) (w : Word) :
    s.takeTurn (.write addr w) = s.turnless.busWrite addr w := rfl

theorem State.takeTurn_read (s : State) (addr : Nat) : s.takeTurn (.read addr) = s.turnless.busRead addr := rfl

theorem State.takeTurn_block (h : blockTurn s.turnless = .next t) : s.takeTurn .block = t :=
  next_inj ((s.takeTurn_step .block).symm.trans h)

/-- The host's CMD write puts its word in execution (R63). -/
theorem State.Ready.takeTurn_cmd (h : s.Ready) (w : Word) :
    s.takeTurn (.write (s.inst.blockBase + 0x100) w) = s.fetching w := by
  have hsel : s.turnless.select (s.inst.blockBase + 0x100) = some 0x100 := s.select_offset (by decide) rfl
  rw [State.takeTurn_write, State.busWrite_of_select (s := s.turnless) h.released hsel, if_pos rfl,
    State.writeCmd_idle (s := s.turnless) h.noError h.idle]
  rfl

/-- A command leaves the instance, the refused word and the world outside as they were, and the block idle. -/
theorem exec_keeps (h : exec i s = .next t) :
    t.inst = s.inst ∧ t.overrun = s.overrun ∧ t.outside = s.outside ∧ t.busy = false := by
  rcases exec_ends i s with ⟨s', hc, he⟩ | ⟨e, -, he⟩
  · obtain rfl := next_inj (he.symm.trans h)
    exact ⟨hc.inst_eq, hc.overrun_eq, hc.outside_eq, rfl⟩
  · obtain rfl := next_inj (he.symm.trans h)
    exact ⟨rfl, rfl, rfl, rfl⟩

/-- The block's turn runs the command in execution, and no refused word follows it. -/
theorem State.Ready.takeTurn_fetched (h : s.Ready) (hwf : i.wf = true)
    (hexec : exec i (s.fetching (encode i)) = .next t) : (s.fetching (encode i)).takeTurn .block = t := by
  obtain ⟨-, hover, -, -⟩ := exec_keeps hexec
  apply State.takeTurn_block
  calc blockTurn (s.fetching (encode i))
      = afterCommand (exec i (s.fetching (encode i))) := runCommand_decoded (decode_encode i hwf)
    _ = .next t := by rw [hexec, afterCommand, State.settleOverrun_none (hover.trans h.noRefused)]

/-- A read of an idle block's register returns its word, and touches the world outside alone (R40, R62). -/
theorem State.takeTurn_read_idle (hb : s.busy = false) {off : Nat} (hlt : off < 4096) (h4 : off % 4 = 0) :
    s.takeTurn (.read (s.inst.blockBase + off)) = s.shown (s.readReg false off) := by
  have hsel : s.turnless.select (s.inst.blockBase + off) = some off := s.select_offset hlt h4
  obtain ⟨hd, hv⟩ := readValue_idle (s := s.turnless) hb h4
  rw [State.takeTurn_read, State.busRead, hsel]
  simp only [hd, hv, ← readReg_eq_regMap s.turnless false h4]
  rfl

theorem readOffset_idle (hb : s.busy = false) {off : Nat} (hlt : off < 4096) (h4 : off % 4 = 0) :
    readOffset off s = (s.shown (s.readReg false off), .ok (s.readReg false off)) := by
  rw [readOffset, State.takeTurn_read_idle hb hlt h4]
  rfl

/-- STATUS bit 1 is ERR (R41). -/
theorem statusIdle_err (s : State) : s.statusIdle.getLsbD 1 = s.error.err := by
  unfold State.statusIdle State.statusWith
  rw [BitVec.getLsbD_append, BitVec.getLsbD_append]
  cases s.error.err <;> rfl

/-! ### A command that the host issues -/

/-- The turns of one command run it, and the last of them shows STATUS. -/
theorem State.Ready.issueTurns_run (h : s.Ready) (hwf : i.wf = true)
    (hexec : exec i (s.fetching (encode i)) = .next t) :
    (issueTurns s.inst.blockBase i).foldl State.takeTurn s = t.shown t.statusIdle := by
  obtain ⟨hinst, -, -, hb⟩ := exec_keeps hexec
  have hbase : s.inst = t.inst := hinst.symm
  simp only [issueTurns, List.foldl_cons, List.foldl_nil]
  rw [h.takeTurn_cmd, h.takeTurn_fetched hwf hexec, hbase, State.takeTurn_read_idle hb (by decide) rfl]
  rfl

theorem State.Ready.issue_completed (h : s.Ready) (hwf : i.wf = true)
    (hexec : exec i (s.fetching (encode i)) = .next t) (he : t.error.err = false) :
    issue i s = (t.shown t.statusIdle, .ok ()) :=
  issue_ok (h.issueTurns_run hwf hexec) ((statusIdle_err t).trans he)

/-- After a command that raised, the host reads ERRCODE and ERRINFO and stops with them (R366). -/
theorem State.Ready.issue_failed (h : s.Ready) (hwf : i.wf = true)
    (hexec : exec i (s.fetching (encode i)) = .next t) (he : t.error.err = true) :
    issue i s = (t.shown t.error.info, .error (.block (t.error.code.code.setWidth 32) t.error.info)) := by
  obtain ⟨-, -, -, hb⟩ := exec_keeps hexec
  have herr : ((t.shown t.statusIdle).outside.readData.getD 0).getLsbD 1 = true := (statusIdle_err t).trans he
  have hcode : readOffset 0x008 (t.shown t.statusIdle) =
      (t.shown (t.error.code.code.setWidth 32), .ok (t.error.code.code.setWidth 32)) :=
    readOffset_idle (s := t.shown _) hb (by decide) rfl
  have hinfo : readOffset 0x010 (t.shown (t.error.code.code.setWidth 32)) = (t.shown t.error.info, .ok t.error.info) :=
    readOffset_idle (s := t.shown _) hb (by decide) rfl
  simp only [issue, h.issueTurns_run hwf hexec, herr, if_true]
  exact (HostDuty.andThen_ok hcode).trans (HostDuty.andThen_ok hinfo)

theorem State.Ready.issue_raised {code : ErrCode} {info : Word} (h : s.Ready) (hwf : i.wf = true)
    (hr : Raises i (s.fetching (encode i)) code info) :
    ∃ u, issue i s = (u, .error (.block (code.code.setWidth 32) info)) := by
  obtain ⟨t, hexec, herror, -⟩ := hr
  have hissue := h.issue_failed hwf hexec (by rw [herror])
  rw [herror] at hissue
  exact ⟨_, hissue⟩

/-- In t the host has loaded v into R[rd], and has changed no other register than R[rt]. -/
structure Loaded (s t : State) (rd rt : Reg) (v : Word) : Prop where
  ready : t.Ready
  matrix : t.mx = s.mx
  value : t.reg rd = v
  others : ∀ k, k ≠ rd → k ≠ rt → t.reg k = s.reg k

/-- A command that only writes a register loads it. -/
theorem State.Ready.issue_writes {rd : Reg} {v : Word} (h : s.Ready) (hwf : i.wf = true)
    (hexec : exec i (s.fetching (encode i)) =
      (s.fetching (encode i)).finish (.ok ((s.fetching (encode i)).setReg rd v))) (rt : Reg) :
    ∃ t, issue i s = (t, .ok ()) ∧ Loaded s t rd rt v :=
  ⟨_, h.issue_completed hwf hexec h.noError, (h.regWritten _ rd v).shown _, rfl, State.reg_setReg_self _ rd v,
    fun _ hk _ => State.reg_setReg_other _ rd _ v hk⟩

/-! ### Commands one after the other -/

theorem issueAll_cons_ok {is : List Instr} (h : issue i s = (t, .ok ())) : issueAll (i :: is) s = issueAll is t :=
  HostDuty.andThen_ok h

theorem issueAll_append_ok {is js : List Instr} (h : issueAll is s = (t, .ok ())) :
    issueAll (is ++ js) s = issueAll js t := by
  induction is generalizing s with
  | nil =>
    obtain rfl : s = t := congrArg Prod.fst h
    rfl
  | cons i is ih =>
    rcases hi : issue i s with ⟨u, e | ⟨⟩⟩
    · cases (HostDuty.andThen_error hi).symm.trans h
    · rw [List.cons_append, issueAll_cons_ok hi, ih ((issueAll_cons_ok hi).symm.trans h)]

theorem issueAll_singleton_ok (h : issue i s = (t, .ok ())) : issueAll [i] s = (t, .ok ()) := issueAll_cons_ok h

theorem issueAll_singleton_error {e : EncodeError} (h : issue i s = (t, .error e)) : issueAll [i] s = (t, .error e) :=
  HostDuty.andThen_error h

/-! ### The operands (R92) -/

/-- The halves of LI32: the upper one makes up for the sign extension of the lower. -/
theorem upper32_add_sext32 (v : Word) :
    upper32 (((v + 0x8000) >>> 16).setWidth 16) + sext32 (v.setWidth 16) = v := by
  rw [upper32_eq]
  apply BitVec.eq_of_toNat_eq
  simp only [sext32, BitVec.toNat_add, BitVec.toNat_signExtend, BitVec.msb_eq_decide, BitVec.toNat_ofNat,
    BitVec.toNat_setWidth, BitVec.toNat_ushiftRight, Nat.shiftRight_eq_div_pow, decide_eq_true_eq]
  have hround : (0x8000 : Word).toNat = 0x8000 := rfl
  split <;> omega

theorem State.Ready.loadWord_loads (h : s.Ready) {rd rt : Reg} (hne : rd ≠ rt) (v : Word) :
    ∃ t, issueAll (loadWord rd rt v) s = (t, .ok ()) ∧ Loaded s t rd rt v := by
  by_cases hv : sext32 (v.setWidth 16) = v
  · obtain ⟨t, hi, hl⟩ := h.issue_writes (i := .li rd (v.setWidth 16)) rfl rfl rt
    refine ⟨t, ?_, hv ▸ hl⟩
    simp only [loadWord, if_pos hv]
    exact issueAll_singleton_ok hi
  · obtain ⟨t, ht, hl⟩ := h.issue_writes (i := .lui rd (((v + 0x8000) >>> 16).setWidth 16)) rfl rfl rd
    obtain ⟨u, hu, hl'⟩ := hl.ready.issue_writes (i := .li rt (v.setWidth 16)) rfl rfl rt
    obtain ⟨w, hw, hl''⟩ := hl'.ready.issue_writes (i := .add rd rd rt) rfl rfl rd
    refine ⟨w, ?_, hl''.ready, ?_, ?_, fun k hd hk => ?_⟩
    · simp only [loadWord, if_neg hv]
      rw [issueAll_cons_ok ht, issueAll_cons_ok hu]
      exact issueAll_singleton_ok hw
    · rw [hl''.matrix, hl'.matrix, hl.matrix]
    · rw [hl''.value]
      change u.reg rd + u.reg rt = v
      rw [hl'.value, hl'.others rd hne hne, hl.value, upper32_add_sext32]
    · rw [hl''.others k hd hd, hl'.others k hk hk, hl.others k hd hd]

/-- The row is in R8 and the column in R9, and the matrix is as it was. -/
theorem State.Ready.loadWords_load (h : s.Ready) (row col : Word) :
    ∃ t, issueAll (loadWord 8 10 row ++ loadWord 9 10 col) s = (t, .ok ()) ∧ t.Ready ∧ t.mx = s.mx ∧
      t.reg 8 = row ∧ t.reg 9 = col := by
  obtain ⟨t, ht, hrow⟩ := h.loadWord_loads (rd := 8) (rt := 10) (by decide) row
  obtain ⟨u, hu, hcol⟩ := hrow.ready.loadWord_loads (rd := 9) (rt := 10) (by decide) col
  refine ⟨u, (issueAll_append_ok ht).trans hu, hcol.ready, hcol.matrix.trans hrow.matrix, ?_, hcol.value⟩
  rw [hcol.others 8 (by decide) (by decide), hrow.value]

/-! ### M_READ (R272) -/

theorem exec_mRead (s : State) (rd ra rb : Reg) : exec (.mRead rd ra rb) s =
    s.finish (raiseIf (¬ s.mx.mstate ≠ .none) { code := .sequenceError, info := s.statusIdle }
      (raiseIf (s.side ≤ s.uintReg ra ∨ s.side ≤ s.uintReg rb)
        { code := .outOfRangeAccess, info := rowColumn (s.reg ra) (s.reg rb) }
        (.ok (s.setReg rd ((cell s (s.uintReg ra) (s.uintReg rb)).code.setWidth 32))))) := rfl

/-- M_READ of a cell of the side writes its code. -/
theorem exec_mRead_inside {s : State} {ra rb : Reg} (rd : Reg) (hm : s.mx.mstate ≠ .none)
    (ha : (s.reg ra).toNat < s.side) (hb : (s.reg rb).toNat < s.side) : exec (.mRead rd ra rb) s =
      s.finish (.ok (s.setReg rd ((cell s (s.reg ra).toNat (s.reg rb).toNat).code.setWidth 32))) := by
  have hin : ¬ (s.side ≤ s.uintReg ra ∨ s.side ≤ s.uintReg rb) :=
    not_or.mpr ⟨Nat.not_le.mpr ha, Nat.not_le.mpr hb⟩
  exact exec_of_not_bad (exec_of_not_bad (exec_mRead s rd ra rb) (not_not_intro hm)) hin

/-- M_READ of any other cell raises. -/
theorem mRead_raises_outside {s : State} {ra rb : Reg} (rd : Reg) (hm : s.mx.mstate ≠ .none)
    (hout : s.side ≤ (s.reg ra).toNat ∨ s.side ≤ (s.reg rb).toNat) :
    Raises (.mRead rd ra rb) s .outOfRangeAccess (rowColumn (s.reg ra) (s.reg rb)) :=
  raises_of_bad (exec_of_not_bad (exec_mRead s rd ra rb) (not_not_intro hm)) hout

/-- The host reads R[k] of a ready block (R40). -/
theorem State.Ready.readRegister_eq (h : s.Ready) (k : Reg) :
    readRegister k s = (s.shown (s.reg k), .ok (s.reg k)) := by
  have hk : s.readReg false (0x0C0 + 4 * k.val) = s.reg k := by
    rw [readReg_reg, regMap_eq s false (regTable_reg s false k), ← word_eq]
  rw [readRegister, readOffset_idle h.idle (by omega) (by omega), hk]

/-! ### The cell that the host reads -/

theorem State.side_congr (h : t.mx = s.mx) : t.side = s.side := by rw [State.side, h, State.side]

theorem cell_congr (h : t.mx = s.mx) (r c : Nat) : cell t r c = cell s r c := by rw [cell, h, cell]

section
variable {row col : Word}

theorem State.Ready.readCell_inside (h : s.Ready) (hm : s.mx.mstate ≠ .none) (hrow : row.toNat < s.side)
    (hcol : col.toNat < s.side) :
    ∃ t, readCell row col s = (t, .ok ((cell s row.toNat col.toNat).code.setWidth 32)) ∧ t.Ready ∧ t.mx = s.mx := by
  obtain ⟨t, ht, hready, hmx, rfl, rfl⟩ := h.loadWords_load row col
  rw [← State.side_congr hmx] at hrow hcol
  obtain ⟨u, hu, hl⟩ := hready.issue_writes (i := .mRead 7 8 9) rfl
    (exec_mRead_inside (s := t.fetching _) 7 (hmx.symm ▸ hm) hrow hcol) 7
  refine ⟨u.shown (u.reg 7), ?_, hl.ready.shown _, hl.matrix.trans hmx⟩
  have hread : issueAll (loadWord 8 10 (t.reg 8) ++ loadWord 9 10 (t.reg 9) ++ [.mRead 7 8 9]) s =
      (u, .ok ()) := (issueAll_append_ok ht).trans (issueAll_singleton_ok hu)
  rw [readCell, HostDuty.andThen_ok hread, hl.ready.readRegister_eq, hl.value, ← cell_congr hmx]
  rfl

theorem State.Ready.readCell_outside (h : s.Ready) (hm : s.mx.mstate ≠ .none)
    (hout : s.side ≤ row.toNat ∨ s.side ≤ col.toNat) :
    ∃ t info, readCell row col s = (t, .error (.block 4 info)) := by
  obtain ⟨t, ht, hready, hmx, rfl, rfl⟩ := h.loadWords_load row col
  rw [← State.side_congr hmx] at hout
  obtain ⟨u, hu⟩ := hready.issue_raised (i := .mRead 7 8 9) rfl
    (mRead_raises_outside (s := t.fetching _) 7 (hmx.symm ▸ hm) hout)
  exact ⟨u, _, HostDuty.andThen_error ((issueAll_append_ok ht).trans (issueAll_singleton_error hu))⟩

end

end

/-! ### isDark -/

theorem isDark_code (c : MCell) : isDark (c.code.setWidth 32) = decide (c = .dark) := by cases c <;> rfl

theorem fitsWord_iff {x : Int} : fitsWord x = true ↔ -(2 ^ 31) ≤ x ∧ x < 2 ^ 32 := by
  rw [fitsWord, Bool.and_eq_true, decide_eq_true_eq, decide_eq_true_eq]

theorem State.side_lt (s : State) : s.side < 256 := s.mx.side.isLt

/-- A number inside the side is its own word. -/
theorem toNat_ofInt_inside {x : Int} {n : Nat} (hn : n < 256) (h0 : 0 ≤ x) (hx : x < n) :
    (BitVec.ofInt 32 x).toNat = x.toNat := by
  rw [BitVec.toNat_ofInt]
  omega

/-- The word of a number outside the side is outside it: that of a negative one is large. -/
theorem le_toNat_ofInt_outside {x : Int} {n : Nat} (hn : n < 256) (hw : fitsWord x = true)
    (hx : ¬ (0 ≤ x ∧ x < n)) : n ≤ (BitVec.ofInt 32 x).toNat := by
  obtain ⟨hlo, hhi⟩ := fitsWord_iff.mp hw
  rw [BitVec.toNat_ofInt]
  omega

/-- Settles O60: inside the side M_READ gives the cell, and outside it the block raises, or the host stops where no
register holds the number. -/
theorem hostIsDarkReadsTheCell : Obligations.HostIsDarkReadsTheCell := by
  intro s row col hb he ho hr hm inside
  have hs : s.Ready := ⟨hb, he, ho, hr⟩
  have hside := s.side_lt
  refine ⟨fun hin => ?inside, fun hout => ?outside⟩
  case inside =>
    obtain ⟨hr0, hrow, hc0, hcol⟩ := hin
    have hfits : (fitsWord row && fitsWord col) = true :=
      Bool.and_eq_true_iff.mpr ⟨fitsWord_iff.mpr (by omega), fitsWord_iff.mpr (by omega)⟩
    have hrowWord := toNat_ofInt_inside hside hr0 hrow
    have hcolWord := toNat_ofInt_inside hside hc0 hcol
    obtain ⟨t, ht, hready, hmx⟩ := hs.readCell_inside (row := .ofInt 32 row) (col := .ofInt 32 col) hm (by omega)
      (by omega)
    refine ⟨t, ?_, hmx, Bool.eq_false_iff.mp hready.noError⟩
    rw [isDarkAt, if_pos hfits, HostDuty.andThen_ok ht, hrowWord, hcolWord, isDark_code]
    rfl
  case outside =>
    by_cases hfits : (fitsWord row && fitsWord col) = true
    · obtain ⟨hfr, hfc⟩ := Bool.and_eq_true_iff.mp hfits
      have hword : s.side ≤ (BitVec.ofInt 32 row).toNat ∨ s.side ≤ (BitVec.ofInt 32 col).toNat := by
        by_cases hrow : 0 ≤ row ∧ row < s.side
        · exact .inr (le_toNat_ofInt_outside hside hfc fun hcol => hout ⟨hrow.1, hrow.2, hcol.1, hcol.2⟩)
        · exact .inl (le_toNat_ofInt_outside hside hfr hrow)
      obtain ⟨t, info, ht⟩ := hs.readCell_outside hm hword
      exact ⟨t, _, by rw [isDarkAt, if_pos hfits, HostDuty.andThen_error ht], rfl⟩
    · exact ⟨s, _, by rw [isDarkAt, if_neg hfits]; rfl, rfl⟩

end Sys2Proof.Machine

/-! # The block table, and the guarded reads

Every block of a row of RSBLK has the same number of error-correction codewords, and the blocks of a version have the
same total at each level (R210). -/

namespace Sys2Proof.Machine

open Sys2Proof.Claims

/-! ### CW_RD and M_READ (R218, R272) -/

theorem exec_cwRd (s : State) (rd ra : Reg) : exec (.cwRd rd ra) s =
    s.finish (raiseIf (s.cw.ready = false) { code := .sequenceError, info := s.statusIdle }
      (raiseIf (s.cw.len.toNat ≤ (s.reg ra).toNat) { code := .outOfRangeAccess, info := s.reg ra }
        (.ok (s.setReg rd ((s.cwm (s.reg ra).toNat).setWidth 32))))) := rfl

theorem statusIdle_eq (s : State) : s.statusIdle = BitVec.ofNat 32 (statusNat s false) := statusWith_eq s false

theorem rowColumn_eq (r c : Word) :
    rowColumn r c = BitVec.ofNat 32 (r.toNat % 2 ^ 16 * 2 ^ 16 + c.toNat % 2 ^ 16) := by
  rw [word_eq (rowColumn r c), rowColumn, toNat_append_eq, BitVec.toNat_setWidth, BitVec.toNat_setWidth]

/-- Settles O29: each command's two checks in order, then its value. -/
theorem guardedReads : Obligations.GuardedReads := by
  intro s rd ra rb k c
  have hcw := exec_cwRd s rd ra
  refine ⟨fun hr => ?noStream, fun hr hout => ?streamOutside, fun hr hin => ?stream, fun hm => ?noMatrix,
    fun hm hout => ?cellOutside, fun hm hrow hcol => ?cell⟩
  case noStream => exact statusIdle_eq s ▸ raises_of_bad hcw hr
  case streamOutside => exact raises_of_bad (exec_of_not_bad hcw (by simp [hr])) hout
  case stream => exact writesReg_of_finish (exec_of_not_bad (exec_of_not_bad hcw (by simp [hr])) (Nat.not_le.mpr hin))
  case noMatrix => exact statusIdle_eq s ▸ raises_of_bad (exec_mRead s rd ra rb) (not_not_intro hm)
  case cellOutside => exact rowColumn_eq (s.reg ra) (s.reg rb) ▸ mRead_raises_outside rd hm hout
  case cell =>
    have hread : WritesReg (.mRead rd ra rb) s rd ((cell s k c).code.setWidth 32) :=
      writesReg_of_finish (exec_mRead_inside rd hm hrow hcol)
    generalize cell s k c = x at hread ⊢
    cases x <;> exact hread

/-! ### The rows of RSBLK (R210, R211) -/

/-- A row for a version 1..40 has groups, and its blocks together have total(v) codewords, whatever the level. -/
theorem blockRow_total : ∀ v ≤ 40, ∀ e < 4, v ≠ 0 →
    blockRow v e ≠ [] ∧ ((blockRow v e).map fun g => g.count * g.total).sum = totalOf v := by
  decide +kernel

/-- No group of such a row is empty, and each of its blocks has ec(v, e) codewords after its data, and fits a
polynomial register. -/
theorem blockRow_groups : ∀ v ≤ 40, ∀ e < 4, v ≠ 0 → ∀ g ∈ blockRow v e,
    g.count ≠ 0 ∧ 0 < g.data ∧ g.data + ecOf v e = g.total ∧ g.total < 256 := by
  decide +kernel

theorem sum_data_blocksOf (v e : Nat) : ((blocksOf v e).map (·.data)).sum = capOf v e := blocksOf_sum v e _

section
variable {v e : Nat} (h1 : 1 ≤ v) (h40 : v ≤ 40) (he : e < 4)
include h1 h40 he

theorem blocksOf_ne_nil : blocksOf v e ≠ [] := by
  obtain ⟨hne, -⟩ := blockRow_total v h40 e he (by omega)
  obtain ⟨g, hg⟩ := List.exists_mem_of_ne_nil _ hne
  obtain ⟨hcount, -⟩ := blockRow_groups v h40 e he (by omega) g hg
  exact List.ne_nil_of_mem (List.mem_flatMap.mpr ⟨g, hg, List.mem_replicate.mpr ⟨hcount, rfl⟩⟩)

theorem sum_total_blocksOf : ((blocksOf v e).map (·.total)).sum = totalOf v :=
  (blocksOf_sum v e _).trans (blockRow_total v h40 e he (by omega)).2

theorem block_sizes {b : BlockGroup} (hb : b ∈ blocksOf v e) :
    0 < b.data ∧ b.data + ecOf v e = b.total ∧ b.total < 256 := by
  obtain ⟨g, hg, hrep⟩ := List.mem_flatMap.mp hb
  obtain ⟨-, rfl⟩ := List.mem_replicate.mp hrep
  exact (blockRow_groups v h40 e he (by omega) b hg).2

end

/-! ### TBL_Q (R212, R213) -/

section
variable {s : State} {rd ra : Reg} {sel k : Byte}

theorem exec_tblQ : exec (.tblQ rd ra sel k) s =
    s.finish (raiseIf ((s.reg ra).toNat < 1 ∨ 40 < (s.reg ra).toNat) { code := .badParameter, info := s.reg ra }
      (tblValue (s.reg ra).toNat s.conf.ecl.toNat sel.toNat k.toNat >>= fun x => .ok (s.setReg rd (wordOf x)))) := rfl

theorem tblQ_raises_badParameter (h : ¬ (1 ≤ (s.reg ra).toNat ∧ (s.reg ra).toNat ≤ 40)) :
    Raises (.tblQ rd ra sel k) s .badParameter (s.reg ra) :=
  raises_of_bad exec_tblQ (by omega)

variable (hok : 1 ≤ (s.reg ra).toNat ∧ (s.reg ra).toNat ≤ 40)
include hok

/-- For a version 1..40, TBL_Q ends as `tblValue` does. -/
theorem exec_tblQ_version : exec (.tblQ rd ra sel k) s =
    s.finish (tblValue (s.reg ra).toNat s.conf.ecl.toNat sel.toNat k.toNat >>= fun x => .ok (s.setReg rd (wordOf x))) :=
  exec_of_not_bad exec_tblQ (by omega)

theorem tblQ_gives {x : Nat} (hx : tblValue (s.reg ra).toNat s.conf.ecl.toNat sel.toNat k.toNat = .ok x) :
    WritesReg (.tblQ rd ra sel k) s rd (wordOf x) :=
  writesReg_of_bind_ok (exec_tblQ_version hok) hx

theorem tblQ_refuses
    (hx : tblValue (s.reg ra).toNat s.conf.ecl.toNat sel.toNat k.toNat = .error (outOfRange k.toNat)) :
    Raises (.tblQ rd ra sel k) s .outOfRangeAccess (wordOf k.toNat) :=
  raises_of_bind_error (exec_tblQ_version hok) hx

end

section
variable {k : Nat} {row : List BlockGroup} (f : BlockGroup → Nat)

theorem groupField_of_some {g : BlockGroup} (h : row[k]? = some g) : groupField row k f = .ok (f g) := by
  obtain ⟨hk, -⟩ := List.getElem?_eq_some_iff.mp h
  refine groupField_ok.mpr ⟨hk, congrArg f ?_⟩
  rw [List.getD_eq_getElem?_getD, h, Option.getD_some]

theorem groupField_of_none (h : row[k]? = none) : groupField row k f = .error (outOfRange k) :=
  raiseIf_pos (List.getElem?_eq_none_iff.mp h) _ _

end

section
variable {v e k : Nat}

theorem tblValue_alignment {p : Nat} (h : (alignPos v)[k]? = some p) : tblValue v e 9 k = .ok p := by
  obtain ⟨hk, -⟩ := List.getElem?_eq_some_iff.mp h
  refine raiseIf_ok.mpr ⟨Nat.not_le.mpr hk, congrArg Except.ok ?_⟩
  rw [List.getD_eq_getElem?_getD, h, Option.getD_some]

theorem tblValue_alignment_outside (h : (alignPos v)[k]? = none) : tblValue v e 9 k = .error (outOfRange k) :=
  raiseIf_pos (List.getElem?_eq_none_iff.mp h) _ _

end

/-- Settles O26: the table's facts, and the value of each selector for a version that passes the check. -/
theorem tableQuery : Obligations.TableQuery := by
  refine ⟨fun v e h1 h40 he => ⟨blocksOf_ne_nil h1 h40 he, ?totals, fun b hb => (block_sizes h1 h40 he hb).2.1⟩, ?_⟩
  case totals => rw [sum_total_blocksOf h1 h40 he, sum_total_blocksOf h1 h40 (Nat.succ_pos 3)]
  intro s rd ra k v e ok gives refuses
  refine ⟨fun hbad sel => tblQ_raises_badParameter hbad, fun hok => ?single, fun hok g hg => ?group,
    fun hok hnone => ?groupOutside, fun hok p hp => ?alignment, fun hok hnone => ?alignmentOutside⟩
  case single =>
    have hdata : ((blocksOf v e).map BlockGroup.data).sum = capOf v e := sum_data_blocksOf v e
    have htotal : ((blocksOf v e).map BlockGroup.total).sum = totalOf v :=
      sum_total_blocksOf hok.1 hok.2 s.conf.ecl.isLt
    rw [hdata, htotal, blocksOf_length]
    and_intros <;> exact tblQ_gives hok rfl
  case group => and_intros <;> exact tblQ_gives hok (groupField_of_some _ hg)
  case groupOutside => and_intros <;> exact tblQ_refuses hok (groupField_of_none _ hnone)
  case alignment => exact tblQ_gives hok (tblValue_alignment hp)
  case alignmentOutside => exact tblQ_refuses hok (tblValue_alignment_outside hnone)

end Sys2Proof.Machine

/-! # The Reed-Solomon codewords and RS_ENCODE

A block's codewords are those of x^n d(x) and of its remainder by gen(n): together a multiple of gen(n), which vanishes
at α^0, …, α^(n − 1) (R215). Interleaving only puts the blocks' bytes in order (R216). -/

namespace Sys2Proof.Machine

open Sys2Proof.Claims Polynomial

/-! ### The remainder of a block by the generator (R215) -/

theorem toPolynomial_append (p q : List Byte) :
    toPolynomial (p ++ q) = toPolynomial p * X ^ q.length + toPolynomial q := by
  induction p with
  | nil => rw [List.nil_append, toPolynomial, zero_mul, zero_add]
  | cons c p ih =>
    rw [List.cons_append, toPolynomial, toPolynomial, ih, List.length_append]
    ring

theorem zero_notMem_generator {n : Nat} {g : List Byte} (hn : n < 255) (hlen : g.length = n + 1)
    (hpoly : toPolynomial g = genPoly n) : (0 : Byte) ∉ g := fun hmem => by
  obtain ⟨k, hk, h0⟩ := exists_coef_of_mem hmem
  refine coeff_genPoly_ne_zero (n := n) (k := k) hn (by omega) ?_
  rw [← hpoly, coeff_toPolynomial, h0, fieldElem_zero]

/-- `mod` leaves a remainder also of a sequence that begins with 0, where it is shorter than the divisor. -/
theorem polyMod_remainder {a b : List Byte} (hb : b ≠ []) (hb0 : (0 : Byte) ∉ b)
    (ha : a.length < b.length ∨ a.head? ≠ some 0) :
    ∃ q r, polyMod a b = .ok r ∧ r.length < b.length ∧
      toPolynomial a = toPolynomial q * toPolynomial b + toPolynomial r := by
  rw [polyMod_of_ne_nil a hb]
  rcases ha with hlt | hhead
  · exact ⟨[], a, modLoop_of_lt _ hlt, hlt, by rw [toPolynomial, zero_mul, zero_add]⟩
  · obtain ⟨q, r, hr, hdiv⟩ := modLoop_ok hb hb0 le_rfl hhead
    exact ⟨q, r, hr, hdiv.shorter, hdiv.identity⟩

/-- Without data other than zeros, `Poly(d, n)` is n zeros; otherwise it does not begin with 0. -/
theorem strip_append_zeros_short_or_stripped (d : List Byte) (n : Nat) :
    (strip d ++ zeros n).length < n + 1 ∨ (strip d ++ zeros n).head? ≠ some 0 := by
  obtain ⟨-, -, hhead⟩ := strip_spec d
  cases hd : strip d with
  | nil =>
    left
    rw [List.nil_append, zeros, List.length_replicate]
    exact Nat.lt_succ_self n
  | cons c q =>
    right
    rwa [hd] at hhead

theorem rightJustify_eq {n : Nat} {r : List Byte} (h : r.length ≤ n) :
    rightJustify n r = List.replicate (n - r.length) 0 ++ r := by
  refine List.ext_getElem (by simp [rightJustify, h]) fun i hi _ => ?_
  have hin : i < n := by rwa [rightJustify_length] at hi
  rw [List.getElem_append]
  simp only [rightJustify, List.getElem_map, List.getElem_range, List.length_replicate, List.getElem_replicate]
  split_ifs with h1 h2 h2
  · omega
  · rw [List.getD_eq_getElem _ _ (by omega)]
    congr 1
    omega
  · rfl
  · omega

/-- x are the n codewords that make d ++ x a codeword of the Reed-Solomon code with the roots α^0, …, α^(n − 1). -/
structure Completed (n : Nat) (d x : List Byte) : Prop where
  length : x.length = n
  roots : ∀ i < n, evalAt (d ++ x) (alphaPow i) = 0

/-- A multiple of gen(n) vanishes at its roots. -/
theorem Completed.of_remainder {n : Nat} {d x : List Byte} {q : FieldRing[X]} (hlen : x.length = n)
    (h : toPolynomial d * X ^ n = q * genPoly n + toPolynomial x) : Completed n d x where
  length := hlen
  roots i hi := by
    have hmultiple : toPolynomial (d ++ x) = q * genPoly n := by
      rw [toPolynomial_append, hlen, h, add_assoc, polynomial_add_self, add_zero]
    rw [← fieldElem_eq_zero, fieldElem_evalAt, hmultiple, eval_mul, fieldElem_alphaPow, eval_genPoly hi, mul_zero]

theorem ecWords_completed {n : Nat} {d : List Byte} (hd : d ≠ []) (hn : n < 255) (hlen : d.length + n ≤ 256) :
    ∃ x, ecWords d n = .ok x ∧ Completed n d x := by
  obtain ⟨g, hg, hglen, hgpoly⟩ := polyGen_ok hn.le
  have hraw : polyNew d n = .ok (strip d ++ zeros n) :=
    polyNew_of_le hd ((Nat.add_le_add_right (strip_length_le d) n).trans hlen)
  obtain ⟨q, r, hr, hshort, hdiv⟩ := polyMod_remainder (List.ne_nil_of_length_eq_add_one hglen)
    (zero_notMem_generator hn hglen hgpoly) (hglen ▸ strip_append_zeros_short_or_stripped d n)
  have hrn : r.length ≤ n := by omega
  refine ⟨rightJustify n r, ?_, .of_remainder (q := toPolynomial q) (rightJustify_length n r) ?_⟩
  · rw [ecWords, hraw, hg]
    exact congrArg (· >>= fun rem => .ok (rightJustify n rem)) hr
  · rw [rightJustify_eq hrn, toPolynomial_zeros_append, ← hgpoly, ← hdiv, toPolynomial_append, toPolynomial_strip,
      toPolynomial_zeros, add_zero, zeros, List.length_replicate]

/-- Every block is completed, in order. -/
theorem ecAll_completed {n : Nat} (hn : n < 255) {ds : List (List Byte)}
    (h : ∀ d ∈ ds, d ≠ [] ∧ d.length + n ≤ 256) :
    ∃ es, ecAll n ds = .ok es ∧ List.Forall₂ (Completed n) ds es := by
  induction ds with
  | nil => exact ⟨[], rfl, .nil⟩
  | cons d ds ih =>
    obtain ⟨⟨hd, hlen⟩, hds⟩ := List.forall_mem_cons.mp h
    obtain ⟨x, hx, hcode⟩ := ecWords_completed hd hn hlen
    obtain ⟨es, hes, hcodes⟩ := ih hds
    exact ⟨x :: es, by rw [ecAll, hx, hes]; rfl, .cons hcode hcodes⟩

/-! ### The block split (R214) -/

theorem splitData_flatten {bs : List BlockGroup} {d : List Byte} (h : d.length ≤ (bs.map (·.data)).sum) :
    (splitData bs d).flatten = d := by
  induction bs generalizing d with
  | nil => exact (List.length_eq_zero_iff.mp (Nat.le_zero.mp h)).symm
  | cons b bs ih =>
    rw [List.map_cons, List.sum_cons] at h
    rw [splitData, List.flatten_cons, ih (by rw [List.length_drop]; omega), List.take_append_drop]

/-- The data of a full buffer, cut into the blocks of a version and level. -/
def blockData (v e : Nat) (bb : List Bool) : List (List Byte) := splitData (blocksOf v e) (bytesOf (capOf v e) bb)

theorem blockData_flatten (v e : Nat) (bb : List Bool) :
    (blockData v e bb).flatten = (List.range (capOf v e)).map (bbByte bb) := by
  rw [blockData, splitData_flatten (by rw [bytesOf_length, sum_data_blocksOf]), bytesOf_eq_map]

theorem blockData_lengths (v e : Nat) (bb : List Bool) :
    (blockData v e bb).map List.length = (blocksOf v e).map (·.data) :=
  splitData_lengths _ _ (by rw [bytesOf_length, sum_data_blocksOf])

section
variable {v e : Nat} {bb : List Bool} (h1 : 1 ≤ v) (h40 : v ≤ 40) (he : e < 4)
include h1 h40 he

theorem blockData_size {d : List Byte} (hd : d ∈ blockData v e bb) : d ≠ [] ∧ d.length + ecOf v e ≤ 256 := by
  obtain ⟨b, hb, hlen⟩ : ∃ b ∈ blocksOf v e, b.data = d.length := by
    rw [← List.mem_map, ← blockData_lengths v e bb]
    exact List.mem_map_of_mem hd
  obtain ⟨hpos, hsum, htotal⟩ := block_sizes h1 h40 he hb
  exact ⟨List.ne_nil_of_length_pos (by omega), by omega⟩

theorem ecOf_lt : ecOf v e < 255 := by
  obtain ⟨b, hb⟩ := List.exists_mem_of_ne_nil _ (blocksOf_ne_nil h1 h40 he)
  obtain ⟨hpos, hsum, htotal⟩ := block_sizes h1 h40 he hb
  omega

end

/-! ### The interleaving (R216) -/

/-- Columns past the longest block are empty. -/
theorem columns_of_le {blocks : List (List Byte)} {m n : Nat} (hm : ∀ b ∈ blocks, b.length ≤ m) (hmn : m ≤ n) :
    columns n blocks = columns m blocks := by
  induction hmn with
  | refl => rfl
  | step hmn ih =>
    have hempty : (blocks.filterMap fun b => b[_]?) = [] := List.filterMap_eq_nil_iff.mpr fun b hb =>
      List.getElem?_eq_none ((hm b hb).trans hmn)
    rw [columns, List.range_succ, List.flatMap_append, List.flatMap_singleton, hempty, List.append_nil]
    exact ih

theorem columns_eq_byColumns {blocks : List (List Byte)} {m : Nat} (hm : ∀ b ∈ blocks, b.length ≤ m)
    (h256 : ∀ b ∈ blocks, b.length ≤ 256) : columns m blocks = byColumns blocks := by
  rcases le_total m 256 with hle | hle
  · exact (columns_of_le hm hle).symm
  · exact columns_of_le h256 hle

theorem interleave_eq_byColumns {data ec : List (List Byte)} {n : Nat} (hdata : ∀ d ∈ data, d.length ≤ 256)
    (hn : n ≤ 256) (hec : ∀ x ∈ ec, x.length = n) : interleave data ec n = byColumns data ++ byColumns ec := by
  rw [interleave, columns_eq_byColumns (fun d hd => (le_foldl_max _ 0).2 _ (List.mem_map_of_mem hd)) hdata,
    columns_eq_byColumns (fun x hx => (hec x hx).le) fun x hx => (hec x hx).le.trans hn]

/-! ### The stream (R217) -/

/-- Settles O27: the split of the buffer's bytes, the completion of each block, and the columns of both. -/
theorem reedSolomonCodewords : Obligations.ReedSolomonCodewords := by
  intro v e bb h1 h40 he _
  have hsize := fun d hd => blockData_size (bb := bb) h1 h40 he (d := d) hd
  have hec := ecOf_lt h1 h40 he
  obtain ⟨E, hE, hcodes⟩ := ecAll_completed hec hsize
  have hlen : E.length = (blockData v e bb).length := hcodes.length_eq.symm
  have hEn : ∀ x ∈ E, x.length = ecOf v e := fun x hx => by
    obtain ⟨i, hi, rfl⟩ := List.getElem_of_mem hx
    exact (hcodes.get (hlen ▸ hi) hi).length
  have hstream : codewordsOf v e bb = .ok (byColumns (blockData v e bb) ++ byColumns E) := by
    rw [← interleave_eq_byColumns (fun d hd => by have := (hsize d hd).2; omega) (by omega) hEn]
    exact congrArg (· >>= fun ec => .ok (interleave (blockData v e bb) ec (ecOf v e))) hE
  refine ⟨blockData v e bb, E, blockData_flatten v e bb, blockData_lengths v e bb, hlen, hEn, ?roots,
    codewordsOf_length hstream h40 (by omega) he, hstream⟩
  case roots =>
    intro r d x hd hx
    obtain ⟨hrd, rfl⟩ := List.getElem?_eq_some_iff.mp hd
    obtain ⟨hrx, rfl⟩ := List.getElem?_eq_some_iff.mp hx
    exact (hcodes.get hrd hrx).roots

theorem exec_rsEncode (s : State) : exec .rsEncode s =
    s.finish (raiseIf (s.conf.ver = 0) { code := .badParameter, info := 0 }
      (raiseIf (s.bb.length ≠ s.cap * 8) { code := .sequenceError, info := wordOf s.bb.length }
        (codewordsOf s.conf.ver.toNat s.conf.ecl.toNat s.bb >>= fun S => .ok (s.setStream S)))) := rfl

theorem same_setStream {s : State} {e : Elem} (S : List Byte) (he : e ∉ [Elem.cwm, .cwLen, .cwReady]) :
    e.same s (s.setStream S) := by
  cases e with
  | cwm | cwLen | cwReady => exact absurd (by decide) he
  | regs | polys => exact fun _ => rfl
  | mat => exact fun _ _ => rfl
  | _ => rfl

/-- CWM after S has been written at its start. -/
theorem cwm_setStream {s : State} (hm : s.MemOk) (S : List Byte) (k : Nat) :
    (s.setStream S).cwm k = if k < S.length then S.getD k cwmUnwritten else s.cwm k := by
  obtain ⟨hwf, -⟩ := State.memOk_iff.mp hm
  rw [State.cwm, State.setStream_cw, Memory.read_writeRun hwf, Nat.zero_add, Nat.sub_zero]
  simp only [Nat.zero_le, true_and, State.cwm]

/-- Settles O28: the checks in order, then the write of the stream, which every full buffer has. -/
theorem rsEncode : Obligations.RsEncode := by
  intro s v e
  have hexec := exec_rsEncode s
  refine ⟨fun hver => ?noVersion, fun hver hlen => ?notFull, fun hm hver h40 hfull => ?stream⟩
  case noVersion => exact raises_of_bad hexec hver
  case notFull => exact raises_of_bad (exec_of_not_bad hexec hver) hlen
  case stream =>
    have h1 : 1 ≤ v := Nat.one_le_iff_ne_zero.mpr fun h => hver (BitVec.eq_of_toNat_eq h)
    obtain ⟨D, E, -, -, -, -, -, -, hS⟩ := reedSolomonCodewords v e s.bb h1 h40 s.conf.ecl.isLt hfull
    obtain ⟨htotal, -, hcwLen⟩ := stream_length h40 hver hS
    have hwrite : exec .rsEncode s = s.finish (.ok (s.setStream (byColumns D ++ byColumns E))) :=
      (exec_of_not_bad (exec_of_not_bad hexec hver) (not_not_intro hfull)).trans
        (congrArg (fun m => s.finish (m >>= fun S => .ok (s.setStream S))) hS)
    refine ⟨_, hS, completes_of_finish hwrite rfl (fun e he => same_setStream _ he)
      ⟨rfl, hcwLen, htotal, fun k x hx => ?_, fun k hk => ?_⟩⟩
    · obtain ⟨hk, rfl⟩ := List.getElem?_eq_some_iff.mp hx
      exact (cwm_setStream hm _ k).trans (by rw [if_pos hk, List.getD_eq_getElem _ _ hk])
    · exact (cwm_setStream hm _ k).trans (if_neg (Nat.not_lt.mpr hk))

end Sys2Proof.Machine

/-! # The BCH encoder

The numbers are polynomials over GF(2), their bits the coefficients. A pass of R242's loop takes away the leading term
of the dividend, and adds a term to the quotient, so the loop is a division for every generator. -/

namespace Sys2Proof.Machine

open Sys2Proof.Claims

section
variable {g d q m n k : Nat}

/-! ### The length of a number in bits (R242) -/

theorem bitlen_le_iff : bitlen d ≤ n ↔ d < 2 ^ n := by
  rw [bitlen]
  split
  case isTrue h => simp [h]
  case isFalse h => rw [Nat.add_one_le_iff, Nat.log2_lt h]

theorem bitlen_eq_succ_iff : bitlen d = n + 1 ↔ 2 ^ n ≤ d ∧ d < 2 ^ (n + 1) := by
  have hlt := bitlen_le_iff (d := d) (n := n)
  have hle := bitlen_le_iff (d := d) (n := n + 1)
  omega

theorem bitlen_shiftLeft (h : bitlen g = m + 1) (k : Nat) : bitlen (g <<< k) = m + k + 1 := by
  rw [bitlen_eq_succ_iff] at h ⊢
  rw [Nat.shiftLeft_eq, Nat.pow_add, Nat.add_right_comm, Nat.pow_add]
  exact ⟨Nat.mul_le_mul_right _ h.1, Nat.mul_lt_mul_of_pos_right h.2 (Nat.two_pow_pos k)⟩

/-- The leading bits cancel. -/
theorem bitlen_xor_le (hd : bitlen d = n + 1) (hq : bitlen q = n + 1) : bitlen (d ^^^ q) ≤ n := by
  have top {x : Nat} (h : bitlen x = n + 1) : x / 2 ^ n = 1 := by
    obtain ⟨hle, hlt⟩ := bitlen_eq_succ_iff.mp h
    exact Nat.div_eq_of_lt_le (by rwa [Nat.one_mul]) (by rwa [Nat.one_add, Nat.mul_comm, ← Nat.pow_succ])
  rw [bitlen_le_iff, ← Nat.div_eq_zero_iff_lt (Nat.two_pow_pos n), Nat.xor_div_two_pow, top hd, top hq]
  rfl

/-! ### The product over GF(2) -/

/-- The places above the first factor's bits add nothing. -/
theorem carryless_eq_foldl (h : bitlen q ≤ n) (g : Nat) :
    carryless q g = (List.range n).foldl (fun acc i => if q.testBit i then acc ^^^ g <<< i else acc) 0 := by
  induction n, h using Nat.le_induction with
  | base => rfl
  | succ n hle ih =>
    have hbit : q.testBit n = false := Nat.testBit_lt_two_pow (bitlen_le_iff.mp hle)
    simp [List.range_succ, hbit, ih]

/-- A leading term x^k of the first factor adds the second factor, shifted by k places. -/
theorem carryless_two_pow_add (h : q < 2 ^ k) (g : Nat) : carryless (2 ^ k + q) g = carryless q g ^^^ g <<< k := by
  have hlen : bitlen (2 ^ k + q) ≤ k + 1 := bitlen_le_iff.mpr (by omega)
  have htop : (2 ^ k + q).testBit k = true := by rw [Nat.testBit_two_pow_add_eq, Nat.testBit_lt_two_pow h]; rfl
  rw [carryless_eq_foldl hlen, carryless_eq_foldl (bitlen_le_iff.mpr h), List.range_succ, List.foldl_concat,
    if_pos htop]
  refine congrArg (· ^^^ g <<< k) (List.foldl_ext _ _ _ fun acc i hi => ?_)
  rw [Nat.testBit_two_pow_add_gt (List.mem_range.mp hi)]

/-! ### The loop is a division (R242) -/

theorem bchLoop_of_lt (h : bitlen d < bitlen g) (fuel : Nat) : bchLoop g fuel d = d := by
  cases fuel with
  | zero => rfl
  | succ fuel => exact if_pos h

theorem bchLoop_pass (h : ¬ bitlen d < bitlen g) (fuel : Nat) :
    bchLoop g (fuel + 1) d = bchLoop g fuel (d ^^^ g <<< (bitlen d - bitlen g)) := if_neg h

/-- By a generator of degree m the loop leaves a remainder of lower degree. The bound on the quotient makes room for the
term that the pass before adds. -/
theorem bchLoop_divides (hg : bitlen g = m + 1) {fuel d : Nat} (hd : bitlen d ≤ fuel) :
    bchLoop g fuel d < 2 ^ m ∧ ∃ q, q < 2 ^ (bitlen d - m) ∧ d = carryless q g ^^^ bchLoop g fuel d := by
  induction fuel generalizing d with
  | zero =>
    obtain rfl : d = 0 := Nat.lt_one_iff.mp (bitlen_le_iff.mp hd)
    exact ⟨Nat.two_pow_pos m, 0, Nat.two_pow_pos _, (Nat.zero_xor 0).symm⟩
  | succ fuel ih =>
    by_cases hlt : bitlen d < bitlen g
    · rw [bchLoop_of_lt hlt]
      exact ⟨bitlen_le_iff.mp (by omega), 0, Nat.two_pow_pos _, (Nat.zero_xor d).symm⟩
    · obtain ⟨k, hk⟩ : ∃ k, bitlen d = m + k + 1 := ⟨bitlen d - (m + 1), by omega⟩
      have hpass : bchLoop g (fuel + 1) d = bchLoop g fuel (d ^^^ g <<< k) := by
        rw [bchLoop_pass hlt, show bitlen d - bitlen g = k by omega]
      have hdrop : bitlen (d ^^^ g <<< k) ≤ m + k := bitlen_xor_le hk (bitlen_shiftLeft hg k)
      obtain ⟨hr, q, hq, heq⟩ := ih (d := d ^^^ g <<< k) (by omega)
      have hqk : q < 2 ^ k := hq.trans_le (Nat.pow_le_pow_right (by decide) (by omega))
      have hroom : 2 ^ k + q < 2 ^ (bitlen d - m) := by
        rw [show bitlen d - m = k + 1 by omega, Nat.pow_succ]
        omega
      refine ⟨hpass ▸ hr, 2 ^ k + q, hroom, ?_⟩
      calc d = (d ^^^ g <<< k) ^^^ g <<< k := (Nat.xor_xor_cancel_right d _).symm
        _ = carryless q g ^^^ bchLoop g fuel (d ^^^ g <<< k) ^^^ g <<< k := congrArg (· ^^^ g <<< k) heq
        _ = carryless (2 ^ k + q) g ^^^ bchLoop g (fuel + 1) d := by
          rw [hpass, carryless_two_pow_add hqk, Nat.xor_right_comm]

theorem bchRem_divides (hg : bitlen g = m + 1) (d : Nat) :
    bchRem d g < 2 ^ m ∧ ∃ q, d = carryless q g ^^^ bchRem d g := by
  obtain ⟨hr, q, -, heq⟩ := bchLoop_divides hg (Nat.le_refl (bitlen d))
  exact ⟨hr, q, heq⟩

end

/-! ### BCH_FMT and BCH_VER (R243 to R246) -/

/-- Data bits above their m check bits. -/
theorem shiftLeft_or_bchRem {g m : Nat} (hg : bitlen g = m + 1) (x : Nat) :
    x <<< m ||| bchRem (x <<< m) g = x * 2 ^ m + bchRem (x * 2 ^ m) g := by
  rw [← Nat.shiftLeft_add_eq_or_of_lt (bchRem_divides hg _).1, Nat.shiftLeft_eq]

theorem bitlen_g15 : bitlen g15 = 10 + 1 := by decide

theorem bitlen_g18 : bitlen g18 = 12 + 1 := by decide

theorem bchFmtWord_eq (x : Nat) : bchFmtWord x = (x * 2 ^ 10 + bchRem (x * 2 ^ 10) g15) ^^^ 0x5412 :=
  congrArg (· ^^^ g15Mask) (shiftLeft_or_bchRem bitlen_g15 x)

theorem bchVerWord_eq (x : Nat) : bchVerWord x = x * 2 ^ 12 + bchRem (x * 2 ^ 12) g18 :=
  shiftLeft_or_bchRem bitlen_g18 x

section
variable (s : State) (rd ra : Reg)

theorem exec_bchFmt : exec (.bchFmt rd ra) s =
    s.finish (raiseIf (31 < (s.reg ra).toNat) { code := .badParameter, info := s.reg ra }
      (.ok (s.setReg rd (wordOf (bchFmtWord (s.reg ra).toNat))))) := rfl

theorem exec_bchVer : exec (.bchVer rd ra) s =
    s.finish (raiseIf (63 < (s.reg ra).toNat) { code := .badParameter, info := s.reg ra }
      (.ok (s.setReg rd (wordOf (bchVerWord (s.reg ra).toNat))))) := rfl

end

/-- Settles O30: the range check, then the data bits with the remainder that the division leaves. -/
theorem bchCommands : Obligations.BchCommands := by
  intro s rd ra x
  refine ⟨fun hle => ?format, raises_of_bad (exec_bchFmt s rd ra), fun hle => ?version,
    raises_of_bad (exec_bchVer s rd ra)⟩
  case format =>
    obtain ⟨hr, q, hq⟩ := bchRem_divides bitlen_g15 (x * 2 ^ 10)
    exact ⟨q, _, hr, hq, bchFmtWord_eq x ▸
      writesReg_of_finish (exec_of_not_bad (exec_bchFmt s rd ra) (Nat.not_lt.mpr hle))⟩
  case version =>
    obtain ⟨hr, q, hq⟩ := bchRem_divides bitlen_g18 (x * 2 ^ 12)
    exact ⟨q, _, hr, hq, bchVerWord_eq x ▸
      writesReg_of_finish (exec_of_not_bad (exec_bchVer s rd ra) (Nat.not_lt.mpr hle))⟩

/-- Settles O31: the encoder computes each table's words. -/
theorem bchTables : Obligations.BchTables := ⟨by decide, by decide, by decide⟩

end Sys2Proof.Machine

/-! # The matrix builder

Every placement is a list of guarded writes (R256), and the mapping writes UNSET cells only, so a set cell stays set
through the whole build (`Extends`). -/

namespace Sys2Proof.Machine

open Sys2Proof.Claims

/-! ### How a command that builds the matrix ends -/

section
variable {i : Instr} {s : State} {ok : Prop} [Decidable ok] {written : List Elem} {P : State → Prop}

theorem raises_sequenceError {k : Effect} (h : exec i s = s.finish (s.needMState ok k)) (hno : ¬ ok) :
    Raises i s .sequenceError (BitVec.ofNat 32 (statusNat s false)) :=
  statusIdle_eq s ▸ raises_of_bad h hno

theorem exec_of_mstate {k : Effect} (h : exec i s = s.finish (s.needMState ok k)) (hok : ok) :
    exec i s = s.finish k :=
  exec_of_not_bad h (not_not_intro hok)

/-- A new matrix is a write of MAT and MSTATE, and of SIDE and MTEST where it changes them. -/
theorem same_setMatrix {e : Elem} {m : Matrix} (hmat : e ≠ .mat) (hstate : e ≠ .mstate)
    (hside : e = .side → m.side = s.mx.side) (htest : e = .mtest → m.mtest = s.mx.mtest) :
    e.same s { s with mx := m } := by
  cases e with
  | mat => exact absurd rfl hmat
  | mstate => exact absurd rfl hstate
  | side => exact hside rfl
  | mtest => exact htest rfl
  | regs | polys | cwm => exact fun _ => rfl
  | _ => rfl

/-- A command that ends with a whole new matrix. -/
theorem completes_of_matrix {m : Matrix} (h : exec i s = s.finish (.ok { s with mx := m }))
    (post : P { s with mx := m }.complete) : Completes i s [.side, .mat, .mstate, .mtest] P := by
  refine completes_of_finish h rfl (fun e he => ?_) post
  obtain ⟨hside, hmat, hstate, htest⟩ : e ≠ .side ∧ e ≠ .mat ∧ e ≠ .mstate ∧ e ≠ .mtest := by simpa using he
  exact same_setMatrix hmat hstate (absurd · hside) (absurd · htest)

/-- A command that ends with new cells and a new build state. -/
theorem completes_of_grid {g : Grid} {m : MState} (h : exec i s = s.finish (.ok (s.setGrid g m)))
    (post : P (s.setGrid g m).complete) : Completes i s [.mat, .mstate] P := by
  refine completes_of_finish h rfl (fun e he => ?_) post
  obtain ⟨hmat, hstate⟩ : e ≠ .mat ∧ e ≠ .mstate := by simpa using he
  exact same_setMatrix hmat hstate (fun _ => rfl) (fun _ => rfl)

/-- A command with a test flag ends with new cells, a new build state, and MTEST where the flag is set. -/
theorem completes_of_marked_grid {g : Grid} {m : MState} {t : Bool}
    (h : exec i s = s.finish (.ok ((s.setGrid g m).markTest t))) (post : P ((s.setGrid g m).markTest t).complete) :
    Completes i s [.mat, .mstate, .mtest] P := by
  refine completes_of_finish h rfl (fun e he => ?_) post
  obtain ⟨hmat, hstate, htest⟩ : e ≠ .mat ∧ e ≠ .mstate ∧ e ≠ .mtest := by simpa using he
  exact same_setMatrix hmat hstate (fun _ => rfl) (absurd · htest)

end

/-! ### Lists of guarded writes -/

section
variable {g : Grid} (hg : gridWf g = true) {l : List (Nat × Nat × Bool)} {r c : Nat}
include hg

theorem gridGet_placeAll_of_set (h : gridGet g r c ≠ .unset) : gridGet (gridPlaceAll g l) r c = gridGet g r c := by
  rw [gridGet_placeAll hg, if_neg h]

theorem gridGet_placeAll_of_notMem (h : ∀ b, (r, c, b) ∉ l) :
    gridGet (gridPlaceAll g l) r c = gridGet g r c := by
  have hnone : (l.find? fun x => x.1 = r ∧ x.2.1 = c) = none := List.find?_eq_none.mpr fun x hx hrc => by
    obtain ⟨rfl, rfl⟩ := of_decide_eq_true hrc
    exact h _ hx
  rw [gridGet_placeAll hg, hnone]
  split
  · next hu => exact hu.symm
  · rfl

/-- An UNSET cell takes the value of one of the writes there. -/
theorem exists_gridGet_placeAll {b : Bool} (hu : gridGet g r c = .unset) (hmem : (r, c, b) ∈ l) :
    ∃ b', (r, c, b') ∈ l ∧ gridGet (gridPlaceAll g l) r c = .ofDark b' := by
  obtain ⟨x, hx⟩ : ∃ x, (l.find? fun x => x.1 = r ∧ x.2.1 = c) = some x :=
    Option.isSome_iff_exists.mp (List.find?_isSome.mpr ⟨_, hmem, by simp⟩)
  obtain ⟨rfl, rfl⟩ : x.1 = r ∧ x.2.1 = c := by simpa using List.find?_some hx
  exact ⟨x.2.2, List.mem_of_find?_eq_some hx, by rw [gridGet_placeAll hg, if_pos hu, hx]; rfl⟩

/-- An UNSET cell takes the value that the writes there agree on. -/
theorem gridGet_placeAll_of_mem {b : Bool} (hu : gridGet g r c = .unset) (hmem : (r, c, b) ∈ l)
    (huniq : ∀ b', (r, c, b') ∈ l → b' = b) : gridGet (gridPlaceAll g l) r c = .ofDark b := by
  obtain ⟨b', hb', hget⟩ := exists_gridGet_placeAll hg hu hmem
  rw [hget, huniq b' hb']

theorem gridGet_placeAll_ne_unset {b : Bool} (hmem : (r, c, b) ∈ l) : gridGet (gridPlaceAll g l) r c ≠ .unset := by
  by_cases hu : gridGet g r c = .unset
  · obtain ⟨b', -, hget⟩ := exists_gridGet_placeAll hg hu hmem
    exact hget ▸ MCell.ofDark_ne_unset b'
  · rwa [gridGet_placeAll_of_set hg hu]

end

/-- The writes of a range of indices, each to two cells. -/
def pairWrites (k : Nat) (p q : Nat → Nat × Nat) (b : Nat → Bool) : List (Nat × Nat × Bool) :=
  (List.range k).flatMap fun i => [((p i).1, (p i).2, b i), ((q i).1, (q i).2, b i)]

theorem mem_pairWrites {k r c : Nat} {p q : Nat → Nat × Nat} {b : Nat → Bool} {x : Bool} :
    (r, c, x) ∈ pairWrites k p q b ↔ ∃ i < k, ((r, c) = p i ∨ (r, c) = q i) ∧ x = b i := by
  simp only [pairWrites, List.mem_flatMap, List.mem_range, List.mem_cons, List.not_mem_nil, or_false, Prod.ext_iff]
  refine exists_congr fun i => and_congr_right fun _ => ?_
  rw [or_and_right, and_assoc, and_assoc]

/-! ### The writes of the placements -/

/-- The writes of the three finder stamps (R259). -/
def finderWrites (n : Nat) : List (Nat × Nat × Bool) :=
  probeWrites n 0 0 ++ probeWrites n (n - 7) 0 ++ probeWrites n 0 (n - 7)

/-- The writes of the timing patterns (R263). -/
def timingWrites (n : Nat) : List (Nat × Nat × Bool) :=
  pairWrites n (fun i => (i, 6)) (fun i => (6, i)) fun i => decide (i % 2 = 0)

/-- The writes of the format word w and of the dark module (R267). -/
def typeInfoWrites (n w : Nat) (t : Bool) : List (Nat × Nat × Bool) :=
  pairWrites 15 (posA n) (posB n) (fun i => !t && w.testBit i) ++ [(n - 8, 8, !t)]

/-- The writes of the version word, from version 7 on (R269). -/
def typeNumWrites (v n : Nat) (t : Bool) : List (Nat × Nat × Bool) :=
  if 7 ≤ v then pairWrites 18 (posV1 n) (posV2 n) fun i => !t && (bchVerWord v).testBit i else []

theorem placeProbes_eq (n : Nat) (g : Grid) : placeProbes n g = gridPlaceAll g (finderWrites n) := rfl

theorem placeTiming_eq (n : Nat) (g : Grid) : placeTiming n g = gridPlaceAll g (timingWrites n) := rfl

theorem placeTypeInfo_eq (n w : Nat) (t : Bool) (g : Grid) :
    placeTypeInfo n w t g = gridPlaceAll g (typeInfoWrites n w t) := rfl

theorem placeTypeNum_eq (v n : Nat) (t : Bool) (g : Grid) :
    placeTypeNum v n t g = gridPlaceAll g (typeNumWrites v n t) := by
  unfold placeTypeNum typeNumWrites
  split <;> rfl

section
variable {n : Nat}

theorem finderWrites_inSquare (n : Nat) : InSquare n (finderWrites n) :=
  ((probeWrites_inSquare n 0 0).append (probeWrites_inSquare n _ 0)).append (probeWrites_inSquare n 0 _)

theorem timingWrites_inSquare (h6 : 6 < n) : InSquare n (timingWrites n) :=
  .pairs fun _ hi => ⟨⟨hi, h6⟩, h6, hi⟩

theorem typeInfoWrites_inSquare (hn : 21 ≤ n) (w : Nat) (t : Bool) : InSquare n (typeInfoWrites n w t) := by
  refine .append (.pairs fun i hi => ?_) (.cons ?_ ?_ .nil)
  · unfold posA posB
    split_ifs <;> dsimp only <;> omega
  all_goals omega

theorem typeNumWrites_inSquare (hn : 21 ≤ n) (v : Nat) (t : Bool) : InSquare n (typeNumWrites v n t) := by
  unfold typeNumWrites
  split
  · refine .pairs fun i hi => ?_
    unfold posV1 posV2
    dsimp only
    omega
  · exact .nil

end

/-! ### What a build keeps -/

/-- g' is g with UNSET cells of the n × n square written: a set cell, and a cell outside the square, is as it was. -/
structure Extends (n : Nat) (g g' : Grid) : Prop where
  wf : gridWf g' = true
  keeps : ∀ r c, gridGet g r c ≠ .unset → gridGet g' r c = gridGet g r c
  outside : ∀ r c, n ≤ r ∨ n ≤ c → gridGet g' r c = gridGet g r c

section
variable {n : Nat} {g g' g'' : Grid}

theorem Extends.refl (hg : gridWf g = true) (n : Nat) : Extends n g g := ⟨hg, fun _ _ _ => rfl, fun _ _ _ => rfl⟩

theorem Extends.set_of_set (h : Extends n g g') {r c : Nat} (hs : gridGet g r c ≠ .unset) :
    gridGet g' r c ≠ .unset := by rwa [h.keeps r c hs]

theorem Extends.trans (h : Extends n g g') (h' : Extends n g' g'') : Extends n g g'' where
  wf := h'.wf
  keeps r c hs := (h'.keeps r c (h.set_of_set hs)).trans (h.keeps r c hs)
  outside r c hrc := (h'.outside r c hrc).trans (h.outside r c hrc)

theorem Extends.placeAll (h : Extends n g g') {l : List (Nat × Nat × Bool)} (hl : InSquare n l) :
    Extends n g (gridPlaceAll g' l) :=
  h.trans
    { wf := gridWf_placeAll h.wf l
      keeps := fun _ _ hs => gridGet_placeAll_of_set h.wf hs
      outside := fun r c hrc => gridGet_placeAll_of_notMem h.wf fun b hb => by
        obtain ⟨hr, hc⟩ : r < n ∧ c < n := hl _ hb
        omega }

theorem Extends.alignAt (h : Extends n g g') {R C : Nat} (hR : R + 2 < n) (hC : C + 2 < n) :
    Extends n g (placeAlignAt g' R C) := by
  unfold placeAlignAt
  split
  · exact h
  · exact h.placeAll (alignWrites_inSquare hR hC)

theorem Extends.align (h : Extends n g g') {v : Nat} (hv : v ≤ Config.maxVer) (hn : n = sideOf v) :
    Extends n g (placeAlign v g') := by
  have hpos : ∀ R ∈ alignPos v, R + 2 < n := fun R hR => hn ▸ alignPos_bound v hv R hR
  exact List.foldlRecOn (motive := Extends n g) _ _ h fun _ h R hR =>
    List.foldlRecOn (motive := Extends n g) _ _ h fun _ h C hC => h.alignAt (hpos R hR) (hpos C hC)

theorem Extends.mapCells (h : Extends n g g') (m : Nat) {l : List (Nat × Nat)}
    (hl : ∀ x ∈ l, x.1 < n ∧ x.2 < n) (bs : List Bool) : Extends n g (mapCells m l bs g') := by
  induction l generalizing g' bs with
  | nil => exact h
  | cons x l ih =>
    obtain ⟨hx, hl⟩ := List.forall_mem_cons.mp hl
    unfold Machine.mapCells
    split
    · next hu =>
      refine ih (h.trans ⟨gridWf_set h.wf _ _ _, fun r c hs => ?_, fun r c hrc => ?_⟩) hl _
      · rw [gridGet_set h.wf, if_neg]
        rintro ⟨rfl, rfl⟩
        exact hs hu
      · rw [gridGet_set h.wf, if_neg]
        rintro ⟨rfl, rfl⟩
        omega
    · exact ih h hl _

end
end Sys2Proof.Machine

/-! # The mapping walk

The columns of the pairs are those of `pairRight`, so the walk is the snake, pair by pair. On an odd side the pairs
share no cell, and together they are the columns other than 6 (R270). -/

namespace Sys2Proof.Machine

open Sys2Proof.Claims

/-! ### The pairs of columns -/

/-- The cells of the k-th pair of columns, in the order of the snake. -/
def snakePair (n k : Nat) : List (Nat × Nat) :=
  (List.range n).flatMap fun j =>
    let row := if k % 2 = 0 then n - 1 - j else j
    [(row, pairRight n k), (row, pairRight n k - 1)]

theorem snake_eq (n : Nat) : snake n = (List.range ((n - 1) / 2)).flatMap (snakePair n) := rfl

/-- From an even column on, at or right of column 6, the right columns are those of the closed form. -/
theorem pairColumns_eq {m : Nat} (hm : 3 ≤ m) (fuel : Nat) :
    pairColumns (fuel + m) (2 * m) = (List.range m).map (pairRight (2 * m + 1)) := by
  induction m, hm using Nat.le_induction with
  | base =>
    have hend : pairColumns fuel 0 = [] := by cases fuel <;> rfl
    exact congrArg (fun l => 5 :: 3 :: 1 :: l) hend
  | succ m hm ih =>
    have hfirst : pairRight (2 * (m + 1) + 1) 0 = 2 * (m + 1) := by
      unfold pairRight
      rw [if_pos (by omega)]
      omega
    have hrest : pairRight (2 * (m + 1) + 1) ∘ Nat.succ = pairRight (2 * m + 1) := funext fun k => by
      show pairRight (2 * (m + 1) + 1) (k + 1) = _
      unfold pairRight
      rw [show 2 * (m + 1) + 1 - 1 - 2 * (k + 1) = 2 * m + 1 - 1 - 2 * k by omega,
        show 2 * (m + 1) + 1 - 2 - 2 * (k + 1) = 2 * m + 1 - 2 - 2 * k by omega]
    rw [← Nat.add_assoc, pairColumns, if_neg (by omega), if_neg (by omega), List.range_succ_eq_map, List.map_cons,
      List.map_map, hfirst, hrest, ← ih]
    rfl

/-- The walk of a pair goes up for an even index, and down for an odd one. -/
theorem pairRows_flatMap (n k : Nat) :
    ((pairRows n (decide (k % 2 = 0))).flatMap fun row => [(row, pairRight n k), (row, pairRight n k - 1)]) =
      snakePair n k := by
  unfold pairRows snakePair
  by_cases hk : k % 2 = 0
  · have hrev : (List.range n).reverse = (List.range n).map (n - 1 - ·) := by
      rw [List.range_eq_range', List.reverse_range', ← List.range_eq_range']
      simp
    simp only [hk, decide_true, if_true, hrev, List.flatMap_map]
  · simp only [hk, decide_false, Bool.false_eq_true, if_false]

theorem walkPairs_eq (n m k : Nat) :
    walkPairs n (decide (k % 2 = 0)) ((List.range' k m).map (pairRight n)) =
      (List.range' k m).flatMap (snakePair n) := by
  induction m generalizing k with
  | zero => rfl
  | succ m ih =>
    have hflip : (!decide (k % 2 = 0)) = decide ((k + 1) % 2 = 0) := by
      rw [← decide_not, decide_eq_decide]
      omega
    rw [List.range'_succ, List.map_cons, walkPairs, List.flatMap_cons, pairRows_flatMap, hflip, ih]

/-! ### The snake on an odd side -/

section
variable {n : Nat} (hodd : n % 2 = 1) (h7 : 7 ≤ n)
include hodd h7

theorem walk_eq_snake : walk n = snake n := by
  obtain ⟨m, rfl⟩ : ∃ m, n = 2 * m + 1 := ⟨n / 2, by omega⟩
  have hcols : pairColumns (2 * m + 1) (2 * m) = (List.range m).map (pairRight (2 * m + 1)) := by
    rw [← pairColumns_eq (by omega) (m + 1)]
    congr 1
    omega
  have hcount : (2 * m + 1 - 1) / 2 = m := by omega
  rw [walk, Nat.add_sub_cancel, hcols, snake_eq, hcount, List.range_eq_range']
  exact walkPairs_eq (2 * m + 1) m 0

omit hodd h7 in
theorem mem_snakePair {k r c : Nat} :
    (r, c) ∈ snakePair n k ↔ r < n ∧ (c = pairRight n k ∨ c = pairRight n k - 1) := by
  simp only [snakePair, List.mem_flatMap, List.mem_range, List.mem_cons, List.not_mem_nil, or_false, Prod.mk.injEq]
  constructor
  · rintro ⟨j, hj, h⟩
    split at h <;> omega
  · rintro ⟨hr, h⟩
    refine ⟨if k % 2 = 0 then n - 1 - r else r, ?_⟩
    split <;> omega

/-- The two columns of a pair, in the square and not column 6. -/
theorem pairRight_bounds {k : Nat} (hk : k < (n - 1) / 2) :
    1 ≤ pairRight n k ∧ pairRight n k < n ∧ pairRight n k ≠ 6 ∧ pairRight n k ≠ 7 := by
  unfold pairRight
  split <;> omega

/-- The pairs' columns fall, and two pairs share none. -/
theorem pairRight_strictAnti {j k : Nat} (hjk : j < k) (hk : k < (n - 1) / 2) : pairRight n k + 1 < pairRight n j := by
  unfold pairRight
  split <;> split <;> omega

theorem mem_snake {r c : Nat} : (r, c) ∈ snake n ↔ r < n ∧ c < n ∧ c ≠ 6 := by
  simp only [snake_eq, List.mem_flatMap, List.mem_range, mem_snakePair]
  constructor
  · rintro ⟨k, hk, hr, hc⟩
    obtain ⟨-, hlt, hne6, hne7⟩ := pairRight_bounds hodd h7 hk
    omega
  · rintro ⟨hr, hc, h6⟩
    refine ⟨if 6 < c then (n - 1 - c) / 2 else (n - 2 - c) / 2, ?_, hr, ?_⟩
    · split <;> omega
    · unfold pairRight
      split <;> split <;> omega

theorem snakePair_nodup {k : Nat} (hk : k < (n - 1) / 2) : (snakePair n k).Nodup := by
  obtain ⟨hpos, -⟩ := pairRight_bounds hodd h7 hk
  refine List.nodup_flatMap.mpr ⟨fun j _ => ?_, ?_⟩
  · simp
    omega
  · refine List.pairwise_lt_range.imp_of_mem fun {i j} _ hj hij => ?_
    rintro ⟨r, c⟩ hri hrj
    simp only [List.mem_range, List.mem_cons, List.not_mem_nil, or_false, Prod.mk.injEq] at hj hri hrj
    split_ifs at hri hrj <;> omega

theorem snake_nodup : (snake n).Nodup := by
  rw [snake_eq, List.nodup_flatMap]
  refine ⟨fun k hk => snakePair_nodup hodd h7 (List.mem_range.mp hk), ?_⟩
  refine List.pairwise_lt_range.imp_of_mem fun {j k} _ hk hjk => ?_
  rintro ⟨r, c⟩ hj hk'
  have hleft := pairRight_strictAnti hodd h7 hjk (List.mem_range.mp hk)
  rw [mem_snakePair] at hj hk'
  omega

end

/-- Settles O38: the side of a version is odd, so the walk is the snake, and the snake visits each cell once. -/
theorem mappingWalk : Obligations.MappingWalk := by
  intro v h1 h40 n
  have hodd : n % 2 = 1 := by omega
  have h7 : 7 ≤ n := by omega
  rw [walk_eq_snake hodd h7]
  exact ⟨rfl, snake_nodup hodd h7, fun r c => mem_snake hodd h7⟩

end Sys2Proof.Machine

/-! # The data mapping

On a walk that visits no cell twice, the j-th UNSET cell takes the j-th bit of the stream (R270). -/

namespace Sys2Proof.Machine

open Sys2Proof.Claims

/-! ### What the mapping leaves at a cell -/

section
variable {g : Grid} (hg : gridWf g = true) {l : List (Nat × Nat)} {r c : Nat} (m : Nat)
include hg

/-- The mapping writes UNSET cells of the walk only. -/
theorem gridGet_mapCells_of_not_free (bs : List Bool) (h : (r, c) ∈ l → gridGet g r c ≠ .unset) :
    gridGet (mapCells m l bs g) r c = gridGet g r c := by
  induction l generalizing g bs with
  | nil => rfl
  | cons x l ih =>
    unfold mapCells
    split
    · next hu =>
      have hne : ¬ (r = x.1 ∧ c = x.2) := by
        rintro ⟨rfl, rfl⟩
        exact h List.mem_cons_self hu
      have hsame (v : MCell) : gridGet (gridSet g x.1 x.2 v) r c = gridGet g r c := by
        rw [gridGet_set hg, if_neg hne]
      rw [ih (gridWf_set hg _ _ _) _ fun hl => (hsame _).symm ▸ h (List.mem_cons_of_mem _ hl), hsame]
    · exact ih hg bs fun hl => h (List.mem_cons_of_mem _ hl)

/-- The j-th UNSET cell of the walk takes bit j, inverted where the mask says so; past the bits, 0. -/
theorem gridGet_mapCells_of_free (hl : l.Nodup) {bs : List Bool} {j : Nat}
    (h : (l.filter fun p => gridGet g p.1 p.2 = .unset)[j]? = some (r, c)) :
    gridGet (mapCells m l bs g) r c = .ofDark (xor (bs.getD j false) (maskf m r c)) := by
  induction l generalizing g bs j with
  | nil => simp at h
  | cons x l ih =>
    obtain ⟨hx, hl⟩ := List.nodup_cons.mp hl
    unfold mapCells
    split
    · next hu =>
      rw [List.filter_cons_of_pos (by simpa using hu)] at h
      cases j with
      | zero =>
        obtain rfl : x = (r, c) := Option.some.inj h
        rw [gridGet_mapCells_of_not_free (gridWf_set hg _ _ _) m _ (absurd · hx), gridGet_set hg, if_pos ⟨rfl, rfl⟩,
          List.headD_eq_getD]
      | succ j =>
        have hrest (v : MCell) : (l.filter fun p => gridGet (gridSet g x.1 x.2 v) p.1 p.2 = .unset) =
            l.filter fun p => gridGet g p.1 p.2 = .unset :=
          List.filter_congr fun p hp => by
            rw [gridGet_set hg, if_neg]
            rintro ⟨h1, h2⟩
            exact hx (Prod.ext h1 h2 ▸ hp)
        rw [ih (gridWf_set hg _ _ _) hl ((hrest _).symm ▸ h)]
        cases bs <;> rfl
    · next hu =>
      rw [List.filter_cons_of_neg (by simpa using hu)] at h
      exact ih hg hl h

/-- The mapping leaves no cell of the walk UNSET. -/
theorem gridGet_mapCells_ne_unset (hl : l.Nodup) (hmem : (r, c) ∈ l) (bs : List Bool) :
    gridGet (mapCells m l bs g) r c ≠ .unset := by
  by_cases hu : gridGet g r c = .unset
  · obtain ⟨j, hj⟩ := List.mem_iff_getElem?.mp
      (List.mem_filter.mpr ⟨hmem, decide_eq_true hu⟩ : (r, c) ∈ l.filter fun p => gridGet g p.1 p.2 = .unset)
    rw [gridGet_mapCells_of_free hg m hl hj]
    exact MCell.ofDark_ne_unset _
  · rwa [gridGet_mapCells_of_not_free hg m bs fun _ => hu]

end

/-! ### The bits of the stream (R66) -/

theorem getD_streamBits (S : List Byte) (j : Nat) :
    (streamBits S).getD j false = (S.getD (j / 8) 0).getLsbD (7 - j % 8) := by
  induction S generalizing j with
  | nil => simp [streamBits]
  | cons b S ih =>
    have hcons : streamBits (b :: S) = putBits b.toNat 8 ++ streamBits S := rfl
    rw [hcons]
    rcases Nat.lt_or_ge j 8 with hj | hj
    · rw [List.getD_append _ _ _ _ (by simpa using hj), putBits_eq_map, Nat.div_eq_of_lt hj, Nat.mod_eq_of_lt hj]
      simp [List.getD_eq_getElem?_getD, hj, BitVec.getLsbD]
    · obtain ⟨k, rfl⟩ := Nat.exists_eq_add_of_le' hj
      rw [List.getD_append_right _ _ _ _ (by simp), putBits_length, Nat.add_sub_cancel, ih,
        Nat.add_div_right k (by decide), Nat.add_mod_right, List.getD_cons_succ]

theorem getD_streamBits_stream (s : State) (j : Nat) : (streamBits s.stream).getD j false = streamBit s j := by
  rw [getD_streamBits, streamBit, State.stream]
  by_cases h : j / 8 < s.cw.len.toNat
  · rw [decide_eq_true h, Bool.true_and, List.getD_eq_getElem _ _ (by simpa using h), List.getElem_map,
      List.getElem_range]
  · rw [decide_eq_false h, Bool.false_and, List.getD_eq_default _ _ (by simpa using h)]
    exact BitVec.getLsbD_zero

/-! ### M_MAP (R271) -/

theorem exec_mMap (s : State) : exec .mMap s =
    s.finish (s.needMState (s.mx.mstate = .typenum ∨ (s.mx.mstate = .typeinfo ∧ s.conf.ver.toNat < 7))
      (s.needStream (.ok (s.setGrid (mapData s.side s.conf.mask.toNat s.stream s.mx.cells) .mapped)))) := rfl

/-- Settles O39: the walk on a shaped state's side is the snake, which visits no cell twice. -/
theorem dataMapping : Obligations.DataMapping := by
  intro s ok free
  refine ⟨fun hbad => ?refused, fun hm hs hok hready => ?mapped⟩
  case refused =>
    by_cases hok : ok
    · have hno : s.cw.ready = false := hbad.resolve_left (not_not_intro hok)
      exact statusIdle_eq s ▸ raises_of_bad (exec_of_mstate (exec_mMap s) hok) hno
    · exact raises_sequenceError (exec_mMap s) hok
  case mapped =>
    obtain ⟨-, hg⟩ := State.memOk_iff.mp hm
    obtain ⟨-, hside⟩ := hs.matrix (hok.elim (·.trans_ne nofun) (·.1.trans_ne nofun))
    have hodd : s.side % 2 = 1 := by omega
    have h7 : 7 ≤ s.side := by omega
    have hwalk : walk s.side = snake s.side := walk_eq_snake hodd h7
    have hexec := exec_of_not_bad (exec_of_mstate (exec_mMap s) hok) (by simp [hready])
    rw [mapData, hwalk] at hexec
    refine completes_of_grid hexec ⟨rfl, fun j r c hj => ?_, fun r c hfree => ?_⟩
    · exact getD_streamBits_stream s j ▸ gridGet_mapCells_of_free hg _ (snake_nodup hodd h7) hj
    · refine gridGet_mapCells_of_not_free hg _ _ fun hmem hu => hfree ?_
      exact List.mem_filter.mpr ⟨hmem, decide_eq_true hu⟩

end Sys2Proof.Machine

/-! # What the build leaves set

M_TIMING sets row 6 and column 6, the later commands keep set cells, and the mapping sets every cell outside column 6
(R263, R274). -/

namespace Sys2Proof.Machine

open Sys2Proof.Claims

/-! ### The set lines and the set square -/

/-- No cell of column 6 and row 6 of the n × n square is UNSET. -/
def LinesSet (n : Nat) (g : Grid) : Prop := ∀ k, k < n → gridGet g k 6 ≠ .unset ∧ gridGet g 6 k ≠ .unset

/-- No cell of the n × n square is UNSET. -/
def SquareSet (n : Nat) (g : Grid) : Prop := ∀ r c, r < n → c < n → gridGet g r c ≠ .unset

section
variable {n : Nat} {g g' : Grid}

theorem LinesSet.timing (hg : gridWf g = true) (n : Nat) : LinesSet n (placeTiming n g) := fun k hk => by
  rw [placeTiming_eq]
  exact ⟨gridGet_placeAll_ne_unset hg (mem_pairWrites.mpr ⟨k, hk, .inl rfl, rfl⟩),
    gridGet_placeAll_ne_unset hg (mem_pairWrites.mpr ⟨k, hk, .inr rfl, rfl⟩)⟩

theorem LinesSet.extends (h : LinesSet n g) (he : Extends n g g') : LinesSet n g' := fun k hk =>
  (h k hk).imp he.set_of_set he.set_of_set

theorem SquareSet.lines (h : SquareSet n g) (h6 : 6 < n) : LinesSet n g := fun k hk => ⟨h k 6 hk h6, h 6 k h6 hk⟩

/-- The mapping visits every cell of the square but column 6. -/
theorem SquareSet.mapData (h : LinesSet n g) (hg : gridWf g = true) (hodd : n % 2 = 1) (h7 : 7 ≤ n) (m : Nat)
    (S : List Byte) : SquareSet n (mapData n m S g) := fun r c hr hc => by
  rw [Machine.mapData, walk_eq_snake hodd h7]
  by_cases hu : gridGet g r c = .unset
  · have h6 : c ≠ 6 := by
      rintro rfl
      exact (h r hr).1 hu
    exact gridGet_mapCells_ne_unset hg m (snake_nodup hodd h7) ((mem_snake hodd h7).mpr ⟨hr, hc, h6⟩) _
  · rwa [gridGet_mapCells_of_not_free hg m _ fun _ => hu]

end

/-! ### The one-command build (R308) -/

theorem le_sideOf {v : Nat} (hv0 : v ≠ 0) : 21 ≤ sideOf v := by
  unfold sideOf
  omega

/-- The matrix of a build after M_PROBES. -/
def probedCells (v : Nat) (g : Grid) : Grid := placeProbes (sideOf v) (gridClear (sideOf v) g)

/-- The matrix of a build after M_TIMING. -/
def timedCells (v : Nat) (g : Grid) : Grid := placeTiming (sideOf v) (placeAlign v (probedCells v g))

/-- The matrix of a build after M_TYPEINFO. -/
def formatCells (v e m : Nat) (t : Bool) (g : Grid) : Grid :=
  placeTypeInfo (sideOf v) (formatWord e m) t (timedCells v g)

/-- The matrix of a build after M_TYPENUM. -/
def informedCells (v e m : Nat) (t : Bool) (g : Grid) : Grid :=
  placeTypeNum v (sideOf v) t (formatCells v e m t g)

theorem buildCells_eq (v e m : Nat) (t : Bool) (S : List Byte) (g : Grid) :
    buildCells v e m t S g = mapData (sideOf v) m S (informedCells v e m t g) := rfl

section
variable {v : Nat} {g : Grid} (hg : gridWf g = true) (hv : v ≤ Config.maxVer) (hv0 : v ≠ 0) (e m : Nat) (t : Bool)
include hg hv

omit hv in
theorem probedCells_extends (v : Nat) : Extends (sideOf v) (gridClear (sideOf v) g) (probedCells v g) :=
  (Extends.refl (gridWf_clear hg (sideOf v)) (sideOf v)).placeAll (finderWrites_inSquare (sideOf v))

theorem timedCells_extends : Extends (sideOf v) (gridClear (sideOf v) g) (timedCells v g) :=
  ((probedCells_extends hg v).align hv rfl).placeAll (timingWrites_inSquare (by unfold sideOf; omega))

include hv0

theorem formatCells_extends : Extends (sideOf v) (timedCells v g) (formatCells v e m t g) := by
  rw [formatCells, placeTypeInfo_eq]
  exact (Extends.refl (timedCells_extends hg hv).wf _).placeAll
    (typeInfoWrites_inSquare (le_sideOf hv0) _ t)

theorem informedCells_extends : Extends (sideOf v) (formatCells v e m t g) (informedCells v e m t g) := by
  rw [informedCells, placeTypeNum_eq]
  exact (Extends.refl (formatCells_extends hg hv hv0 e m t).wf _).placeAll
    (typeNumWrites_inSquare (le_sideOf hv0) v t)

theorem buildCells_extends (S : List Byte) :
    Extends (sideOf v) (informedCells v e m t g) (buildCells v e m t S g) := by
  rw [buildCells_eq]
  exact (Extends.refl (informedCells_extends hg hv hv0 e m t).wf _).mapCells m
    (walk_inSquare (by have := le_sideOf hv0; omega)) _

/-- A build leaves the cells outside its square. -/
theorem buildCells_outside (S : List Byte) {r c : Nat} (hrc : sideOf v ≤ r ∨ sideOf v ≤ c) :
    gridGet (buildCells v e m t S g) r c = gridGet g r c := by
  have hformat := (timedCells_extends hg hv).trans (formatCells_extends hg hv hv0 e m t)
  have hbuild := (informedCells_extends hg hv hv0 e m t).trans (buildCells_extends hg hv hv0 e m t S)
  rw [(hformat.trans hbuild).outside r c hrc, gridGet_clear hg, if_neg (by omega)]

/-- A build leaves no cell of its square UNSET (R274). -/
theorem buildCells_squareSet (S : List Byte) : SquareSet (sideOf v) (buildCells v e m t S g) := by
  have hlines : LinesSet (sideOf v) (timedCells v g) := .timing (gridWf_align (probedCells_extends hg v).wf v) _
  have hinformed := (formatCells_extends hg hv hv0 e m t).trans (informedCells_extends hg hv hv0 e m t)
  rw [buildCells_eq]
  exact .mapData (hlines.extends hinformed) hinformed.wf (by unfold sideOf; omega) (by unfold sideOf; omega) m S

end

/-! ### BuildOk -/

section
variable {s s' : State} {i : Instr}

theorem State.BuildOk.congr (h : s.BuildOk) (hmx : s'.mx = s.mx) : s'.BuildOk where
  timing := by rw [State.side, hmx]; exact h.timing
  mapped := by rw [State.side, hmx]; exact h.mapped

/-- Before M_TIMING nothing is to be shown. -/
theorem State.BuildOk.of_not_timed (h : ¬ s.mx.mstate.timed) : s.BuildOk where
  timing ht := absurd ht h
  mapped hm := absurd (.inr (.inr (.inr hm))) h

/-- Before the mapping the lines are to be shown set. -/
theorem State.BuildOk.of_linesSet (h : LinesSet s.side s.mx.cells)
    (hm : ¬ (s.mx.mstate = .mapped ∨ s.mx.mstate = .scored)) : s.BuildOk where
  timing _ := h
  mapped hm' := absurd hm' hm

theorem State.BuildOk.of_squareSet (h : SquareSet s.side s.mx.cells) (h6 : 6 < s.side) : s.BuildOk where
  timing _ := h.lines h6
  mapped _ := h

theorem State.BuildOk.of_build (hm : s.MemOk) (h : s.Shaped) (hver : s.conf.ver ≠ 0) {t : Bool} {m : Nat}
    (hmx : s'.mx = s.buildMatrix t m) : s'.BuildOk := by
  have hset : SquareSet (sideOf s.conf.ver.toNat) (s.built t m) :=
    buildCells_squareSet (State.memOk_iff.mp hm).2 h.ver (fun h => hver (BitVec.eq_of_toNat_eq h)) _ m t _
  have hside : s'.side = sideOf s.conf.ver.toNat := by rw [State.side, hmx]; exact side_toNat h.ver
  have hcells : s'.mx.cells = s.built t m := congrArg Matrix.cells hmx
  refine .of_squareSet ?_ (by rw [hside, sideOf]; omega)
  rw [hside, hcells]
  exact hset

theorem Completion.buildOk (hc : Completion s i s') (hm : s.MemOk) (h : s.Shaped) (hb : s.BuildOk) : s'.BuildOk := by
  obtain ⟨-, hg⟩ := State.memOk_iff.mp hm
  have hself : Extends s.side s.mx.cells s.mx.cells := .refl hg _
  cases hc with
  | setver _ | setecl _ | setmask _ => exact .of_not_timed nofun
  | mInit _ | mProbes _ _ | mAlign _ _ => exact .of_not_timed nofun
  | mTiming _ cells =>
    subst cells
    exact .of_linesSet (.timing hg _) nofun
  | @mTypeinfo t _ hstate cells =>
    have hn := (h.side_bounds (hstate.trans_ne nofun)).1
    have hlines : LinesSet s.side s.mx.cells := hb.timing (.inl hstate)
    have hset := hlines.extends (hself.placeAll (typeInfoWrites_inSquare hn (formatOf s) t))
    rw [← placeTypeInfo_eq, ← cells] at hset
    exact .of_linesSet hset nofun
  | @mTypenum t _ hstate cells =>
    have hn := (h.side_bounds (hstate.trans_ne nofun)).1
    have hlines : LinesSet s.side s.mx.cells := hb.timing (.inr (.inl hstate))
    have hset := hlines.extends (hself.placeAll (typeNumWrites_inSquare hn s.conf.ver.toNat t))
    rw [← placeTypeNum_eq, ← cells] at hset
    exact .of_linesSet hset nofun
  | mMap hstate _ cells =>
    obtain ⟨-, hside⟩ := h.matrix (hstate.elim (·.trans_ne nofun) (·.1.trans_ne nofun))
    have hlines : LinesSet s.side s.mx.cells :=
      hb.timing (hstate.elim (fun h => .inr (.inr (.inl h))) fun h => .inr (.inl h.1))
    subst cells
    exact .of_squareSet (.mapData hlines hg (by omega) (by omega) _ _) (show 6 < s.side by omega)
  | mScore hstate =>
    have hn := (h.side_bounds (hstate.elim (·.trans_ne nofun) (·.trans_ne nofun))).1
    exact .of_squareSet (hb.mapped hstate) (show 6 < s.side by omega)
  | mBuild ver _ => exact .of_build hm h ver rfl
  | mSelect ver _ _ => exact .of_build hm h ver rfl
  | _ => exact hb.congr rfl

end

/-- Settles O58: a step leaves the matrix alone, resets it, or makes the writes of one command. -/
theorem stepKeepsBuildOk : Obligations.StepKeepsBuildOk := by
  intro s t hm h hb hst
  rcases step_data hst with hd | ⟨p, o, rfl⟩ | ⟨s₀, i, s', hd₀, hc, hd⟩
  · exact hb.congr hd.mx
  · exact .of_not_timed nofun
  · exact (hc.buildOk (hm.congr hd₀) (h.congr hd₀) (hb.congr hd₀.mx)).congr hd.mx

end Sys2Proof.Machine

/-! # The placement commands

Each command places a list of guarded writes; which writes fall on a cell, and that they agree there, says what the
command leaves of an UNSET cell. -/

namespace Sys2Proof.Machine

open Sys2Proof.Claims

/-! ### M_INIT (R257) -/

theorem exec_mInit (s : State) : exec .mInit s =
    s.finish (raiseIf (s.conf.ver = 0) { code := .badParameter, info := 0 }
      (.ok
        { s with
          mx :=
            { cells := gridClear (sideOf s.conf.ver.toNat) s.mx.cells
              side := BitVec.ofNat 8 (sideOf s.conf.ver.toNat)
              mstate := .empty
              mtest := false } })) := rfl

/-- Settles O32: the version check, then the cleared square. -/
theorem matrixInit : Obligations.MatrixInit := by
  intro s n
  refine ⟨raises_of_bad (exec_mInit s), fun hm hver h40 => ?_⟩
  obtain ⟨-, hg⟩ := State.memOk_iff.mp hm
  refine completes_of_matrix (exec_of_not_bad (exec_mInit s) hver)
    ⟨side_toNat h40, rfl, rfl, fun r c hr hc => ?inside, fun r c hrc => ?outside⟩
  case inside => exact (gridGet_clear hg n r c).trans (if_pos ⟨hr, hc⟩)
  case outside => exact (gridGet_clear hg n r c).trans (if_neg (by omega))

/-! ### M_PROBES (R258, R259) -/

theorem mem_offsets_iff {lo x : Int} {n : Nat} : x ∈ offsets lo n ↔ lo ≤ x ∧ x < lo + n := by
  refine ⟨mem_offsets, fun h => ?_⟩
  simp only [offsets, List.mem_map, List.mem_range]
  exact ⟨(x - lo).toNat, by omega, by omega⟩

/-- The rings of the stamp, as R258 draws them and by their distance from the centre. -/
theorem probeDark_eq_ringDark {r c : Int} (hr : -1 ≤ r ∧ r ≤ 7) (hc : -1 ≤ c ∧ c ≤ 7) :
    probeDark r c = ringDark r c := by
  rw [Bool.eq_iff_iff]
  simp only [probeDark, ringDark, Bool.or_eq_true, Bool.and_eq_true, decide_eq_true_eq, beq_iff_eq]
  omega

/-- A finder's writes: the cells of the square from one before its corner to seven after it. -/
theorem mem_probeWrites {n R C r c : Nat} {b : Bool} :
    (r, c, b) ∈ probeWrites n R C ↔
      ((r < n ∧ c < n) ∧ (R ≤ r + 1 ∧ r ≤ R + 7) ∧ C ≤ c + 1 ∧ c ≤ C + 7) ∧
        ringDark ((r : Int) - R) ((c : Int) - C) = b := by
  simp only [probeWrites, List.mem_flatMap, List.mem_filterMap, mem_offsets_iff]
  constructor
  · rintro ⟨x, hx, y, hy, h⟩
    split at h
    · obtain ⟨rfl, rfl, rfl⟩ : ((R : Int) + x).toNat = r ∧ ((C : Int) + y).toNat = c ∧ probeDark x y = b := by
        simpa using h
      refine ⟨by omega, ?_⟩
      rw [probeDark_eq_ringDark (by omega) (by omega)]
      congr 1 <;> omega
    · cases h
  · rintro ⟨hrc, rfl⟩
    refine ⟨(r : Int) - R, by omega, (c : Int) - C, by omega, ?_⟩
    rw [if_pos (by omega), probeDark_eq_ringDark (by omega) (by omega)]
    congr 3 <;> omega

/-- Where the regions of three values exclude each other, the order of asking for them does not matter. -/
theorem or_iff_ite_eq_some {p q r : Prop} [Decidable p] [Decidable q] [Decidable r] {x y z b : Bool}
    (hqp : q → ¬ p) (hrpq : r → ¬ p ∧ ¬ q) :
    ((p ∧ x = b) ∨ q ∧ y = b) ∨ r ∧ z = b ↔
      (if p then some x else if q then some y else if r then some z else none) = some b := by
  by_cases hp : p
  · have hq : ¬ q := fun h => hqp h hp
    have hr : ¬ r := fun h => (hrpq h).1 hp
    simp [hp, hq, hr]
  · by_cases hq : q
    · have hr : ¬ r := fun h => (hrpq h).2 hq
      simp [hp, hq, hr]
    · by_cases hr : r <;> simp [hp, hq, hr]

/-- The three stamps cover the three corners, and meet nowhere. -/
theorem mem_finderWrites {n r c : Nat} {b : Bool} (hn : 21 ≤ n) :
    (r, c, b) ∈ finderWrites n ↔ finderCell n r c = some b := by
  have htop : (r, c, b) ∈ probeWrites n 0 0 ↔ (r ≤ 7 ∧ c ≤ 7) ∧ ringDark r c = b := by
    rw [mem_probeWrites]
    exact and_congr (by omega) (by simp)
  have hbottom : (r, c, b) ∈ probeWrites n (n - 7) 0 ↔
      (n ≤ r + 8 ∧ r < n ∧ c ≤ 7) ∧ ringDark ((r : Int) - (n - 7 : Int)) c = b := by
    rw [mem_probeWrites, Nat.cast_sub (by omega)]
    exact and_congr (by omega) (by simp)
  have hright : (r, c, b) ∈ probeWrites n 0 (n - 7) ↔
      (r ≤ 7 ∧ n ≤ c + 8 ∧ c < n) ∧ ringDark r ((c : Int) - (n - 7 : Int)) = b := by
    rw [mem_probeWrites, Nat.cast_sub (by omega)]
    exact and_congr (by omega) (by simp)
  rw [finderWrites, List.mem_append, List.mem_append, htop, hbottom, hright]
  exact or_iff_ite_eq_some (by omega) (by omega)

theorem exec_mProbes (s : State) : exec .mProbes s =
    s.finish (s.needMState (s.mx.mstate = .empty) (.ok (s.setGrid (placeProbes s.side s.mx.cells) .probes))) := rfl

/-- Settles O33: the writes of the three stamps are the cells of the three corners. -/
theorem finderPatterns : Obligations.FinderPatterns := by
  intro s
  refine ⟨raises_sequenceError (exec_mProbes s), fun hm hn hstate => ?_⟩
  obtain ⟨-, hg⟩ := State.memOk_iff.mp hm
  refine completes_of_grid (exec_of_mstate (exec_mProbes s) hstate) ⟨rfl, fun r c => ?_⟩
  show gridGet (gridPlaceAll s.mx.cells (finderWrites s.side)) r c = _
  cases hf : finderCell s.side r c with
  | none => exact gridGet_placeAll_of_notMem hg fun b hb => nomatch hf.symm.trans ((mem_finderWrites hn).mp hb)
  | some dark =>
    dsimp only
    split
    · next hu =>
      exact gridGet_placeAll_of_mem hg hu ((mem_finderWrites hn).mpr hf) fun b hb =>
        Option.some.inj (((mem_finderWrites hn).mp hb).symm.trans hf)
    · next hu => exact gridGet_placeAll_of_set hg hu

/-! ### M_ALIGN (R260 to R262) -/

/-- The cells of an alignment stamp: those at a distance of at most 2 from its centre. -/
def Near (R C r c : Nat) : Prop := distance r R ≤ 2 ∧ distance c C ≤ 2

/-- Two stamps share no cell, and neither covers the other's centre. -/
def Apart (p q : Nat × Nat) : Prop := 4 < distance p.1 q.1 ∨ 4 < distance p.2 q.2

theorem near_self (p : Nat × Nat) : Near p.1 p.2 p.1 p.2 := by
  unfold Near distance
  omega

theorem not_near_of_apart {p q : Nat × Nat} {r c : Nat} (h : Apart p q) (hp : Near p.1 p.2 r c) :
    ¬ Near q.1 q.2 r c := by
  unfold Apart Near distance at *
  omega

/-- The stamp is dark but for the ring at distance 1 from its centre. -/
def stampDark (R C r c : Nat) : Bool := decide (max (distance r R) (distance c C) ≠ 1)

theorem alignDark_eq_stampDark {R C r c : Nat} (h : Near R C r c) :
    alignDark ((r : Int) - R) ((c : Int) - C) = stampDark R C r c := by
  rw [alignDark, stampDark, decide_eq_decide]
  unfold Near distance at *
  omega

theorem mem_alignWrites {R C r c : Nat} {b : Bool} (hR : 2 ≤ R) (hC : 2 ≤ C) :
    (r, c, b) ∈ alignWrites R C ↔ Near R C r c ∧ stampDark R C r c = b := by
  have hnear : Near R C r c ↔ (-2 ≤ (r : Int) - R ∧ (r : Int) - R < 3) ∧ -2 ≤ (c : Int) - C ∧ (c : Int) - C < 3 := by
    unfold Near distance
    omega
  simp only [alignWrites, List.mem_flatMap, List.mem_map, mem_offsets_iff]
  constructor
  · rintro ⟨x, hx, y, hy, h⟩
    obtain ⟨hr, hc, rfl⟩ : ((R : Int) + x).toNat = r ∧ ((C : Int) + y).toNat = c ∧ alignDark x y = b := by
      simpa using h
    obtain rfl : x = (r : Int) - R := by omega
    obtain rfl : y = (c : Int) - C := by omega
    have hrc := hnear.mpr ⟨hx, hy⟩
    exact ⟨hrc, (alignDark_eq_stampDark hrc).symm⟩
  · rintro ⟨hrc, rfl⟩
    obtain ⟨hx, hy⟩ := hnear.mp hrc
    refine ⟨_, hx, _, hy, ?_⟩
    rw [alignDark_eq_stampDark hrc, add_sub_cancel, add_sub_cancel, Int.toNat_natCast, Int.toNat_natCast]

/-- The stamp falls on an UNSET cell of g, and its centre is UNSET. -/
def Stamped (g : Grid) (p : Nat × Nat) (r c : Nat) : Prop :=
  gridGet g p.1 p.2 = .unset ∧ Near p.1 p.2 r c ∧ gridGet g r c = .unset

section
variable {g : Grid} (hg : gridWf g = true) {p : Nat × Nat} (hR : 2 ≤ p.1) (hC : 2 ≤ p.2) {r c : Nat}
include hg hR hC

theorem gridGet_alignAt_of_stamped (h : Stamped g p r c) :
    gridGet (placeAlignAt g p.1 p.2) r c = .ofDark (stampDark p.1 p.2 r c) := by
  obtain ⟨hcentre, hnear, hu⟩ := h
  rw [placeAlignAt, if_neg (not_not_intro hcentre)]
  exact gridGet_placeAll_of_mem hg hu ((mem_alignWrites hR hC).mpr ⟨hnear, rfl⟩) fun b hb =>
    ((mem_alignWrites hR hC).mp hb).2.symm

theorem gridGet_alignAt_of_not_stamped (h : ¬ Stamped g p r c) :
    gridGet (placeAlignAt g p.1 p.2) r c = gridGet g r c := by
  unfold placeAlignAt
  split
  · rfl
  · next hcentre =>
    by_cases hu : gridGet g r c = .unset
    · refine gridGet_placeAll_of_notMem hg fun b hb => h ?_
      exact ⟨Classical.not_not.mp hcentre, ((mem_alignWrites hR hC).mp hb).1, hu⟩
    · exact gridGet_placeAll_of_set hg hu

theorem unset_of_alignAt (h : gridGet (placeAlignAt g p.1 p.2) r c = .unset) : gridGet g r c = .unset :=
  Classical.byContradiction fun hset => hset <| by
    rwa [gridGet_alignAt_of_not_stamped hg hR hC fun h => hset h.2.2] at h

end

/-- The stamps at a list of centres, in order. -/
def placeAlignAll (l : List (Nat × Nat)) (g : Grid) : Grid := l.foldl (fun g p => placeAlignAt g p.1 p.2) g

/-- The centres of a version's stamps: every pair of positions, rows then columns. -/
def alignCentres (v : Nat) : List (Nat × Nat) := (alignPos v).flatMap fun R => (alignPos v).map fun C => (R, C)

theorem placeAlign_eq (v : Nat) (g : Grid) : placeAlign v g = placeAlignAll (alignCentres v) g := by
  simp only [placeAlign, placeAlignAll, alignCentres, List.foldl_flatMap, List.foldl_map]

theorem mem_alignCentres {v : Nat} {p : Nat × Nat} : p ∈ alignCentres v ↔ p.1 ∈ alignPos v ∧ p.2 ∈ alignPos v := by
  simp [alignCentres, Prod.ext_iff]

section
variable {l : List (Nat × Nat)} (hlow : ∀ p ∈ l, 2 ≤ p.1 ∧ 2 ≤ p.2) {g : Grid} (hg : gridWf g = true) {r c : Nat}
include hlow hg

/-- A stamp does not make another one fall on the cell. -/
theorem gridGet_alignAll_of_not_stamped (h : ∀ p ∈ l, ¬ Stamped g p r c) :
    gridGet (placeAlignAll l g) r c = gridGet g r c := by
  induction l generalizing g with
  | nil => rfl
  | cons q l ih =>
    obtain ⟨hq, hlow⟩ := List.forall_mem_cons.mp hlow
    obtain ⟨hnotq, hnot⟩ := List.forall_mem_cons.mp h
    have hsame := gridGet_alignAt_of_not_stamped hg hq.1 hq.2 hnotq
    have hrest : ∀ p ∈ l, ¬ Stamped (placeAlignAt g q.1 q.2) p r c := fun p hp ⟨hcentre, hnear, hu⟩ =>
      hnot p hp ⟨unset_of_alignAt hg hq.1 hq.2 hcentre, hnear, hsame ▸ hu⟩
    exact (ih hlow (gridWf_alignAt hg q.1 q.2) hrest).trans hsame

/-- Stamps apart from each other each decide their own cells. -/
theorem gridGet_alignAll_of_stamped (hapart : ∀ p ∈ l, ∀ q ∈ l, p ≠ q → Apart p q) {p : Nat × Nat} (hp : p ∈ l)
    (h : Stamped g p r c) : gridGet (placeAlignAll l g) r c = .ofDark (stampDark p.1 p.2 r c) := by
  induction l generalizing g with
  | nil => cases hp
  | cons q l ih =>
    obtain ⟨hq, hlow'⟩ := List.forall_mem_cons.mp hlow
    have hwf := gridWf_alignAt hg q.1 q.2
    show gridGet (placeAlignAll l (placeAlignAt g q.1 q.2)) r c = _
    by_cases hpq : p = q
    · subst hpq
      have hset := gridGet_alignAt_of_stamped hg hq.1 hq.2 h
      rw [gridGet_alignAll_of_not_stamped hlow' hwf fun _ _ hs => ?_, hset]
      exact MCell.ofDark_ne_unset _ (hset ▸ hs.2.2)
    · have hpl : p ∈ l := (List.mem_cons.mp hp).resolve_left hpq
      obtain ⟨hcentre, hnear, hu⟩ := h
      have hfar := hapart p hp q List.mem_cons_self hpq
      have hoffCell : ¬ Stamped g q r c := fun hs => not_near_of_apart hfar hnear hs.2.1
      have hoffCentre : ¬ Stamped g q p.1 p.2 := fun hs => not_near_of_apart hfar (near_self p) hs.2.1
      refine ih hlow' hwf (fun p hp q hq => hapart p (List.mem_cons_of_mem _ hp) q (List.mem_cons_of_mem _ hq)) hpl
        ⟨?_, hnear, ?_⟩
      · rwa [gridGet_alignAt_of_not_stamped hg hq.1 hq.2 hoffCentre]
      · rwa [gridGet_alignAt_of_not_stamped hg hq.1 hq.2 hoffCell]

end

/-- The positions of a version leave room for the stamp, and lie more than 4 apart (R260). -/
theorem alignPos_apart : ∀ v < 64, ∀ a ∈ alignPos v, 2 ≤ a ∧ ∀ b ∈ alignPos v, a ≠ b → 4 < distance a b := by
  decide +kernel

section
variable {v : Nat} (hv : v < 64)
include hv

theorem alignCentres_low {p : Nat × Nat} (hp : p ∈ alignCentres v) : 2 ≤ p.1 ∧ 2 ≤ p.2 :=
  (mem_alignCentres.mp hp).imp (fun h => (alignPos_apart v hv _ h).1) fun h => (alignPos_apart v hv _ h).1

theorem alignCentres_apart {p q : Nat × Nat} (hp : p ∈ alignCentres v) (hq : q ∈ alignCentres v) (hpq : p ≠ q) :
    Apart p q := by
  obtain ⟨hR, hC⟩ := mem_alignCentres.mp hp
  obtain ⟨hR', hC'⟩ := mem_alignCentres.mp hq
  by_cases hrow : p.1 = q.1
  · exact .inr ((alignPos_apart v hv _ hC).2 _ hC' fun hcol => hpq (Prod.ext hrow hcol))
  · exact .inl ((alignPos_apart v hv _ hR).2 _ hR' hrow)

end

theorem exec_mAlign (s : State) : exec .mAlign s =
    s.finish (s.needMState (s.mx.mstate = .probes)
      (.ok (s.setGrid (placeAlign s.conf.ver.toNat s.mx.cells) .align))) := rfl

/-- Settles O34: the stamps of a version lie apart, so none covers another's centre or cells. -/
theorem alignmentPatterns : Obligations.AlignmentPatterns := by
  intro s pos stamped
  refine ⟨raises_sequenceError (exec_mAlign s), fun hm hstate => ?_⟩
  obtain ⟨-, hg⟩ := State.memOk_iff.mp hm
  have hlow : ∀ p ∈ alignCentres s.conf.ver.toNat, 2 ≤ p.1 ∧ 2 ≤ p.2 := fun _ => alignCentres_low s.conf.ver.isLt
  have hexec := exec_of_mstate (exec_mAlign s) hstate
  rw [placeAlign_eq] at hexec
  refine completes_of_grid hexec ⟨rfl, fun R C r c => ?stamp, fun r c hno => ?other⟩
  case stamp =>
    rintro ⟨hR, hC, hcentre, hr, hc, hu⟩
    have hdark := gridGet_alignAll_of_stamped hlow hg (fun _ hp _ => alignCentres_apart s.conf.ver.isLt hp)
      (p := (R, C)) (mem_alignCentres.mpr ⟨hR, hC⟩) ⟨hcentre, ⟨hr, hc⟩, hu⟩
    refine hdark.trans ?_
    unfold stampDark
    by_cases hring : max (distance r R) (distance c C) = 1 <;> simp [hring, MCell.ofDark]
  case other =>
    refine gridGet_alignAll_of_not_stamped hlow hg fun p hp ⟨hcentre, hnear, hu⟩ => hno ⟨p.1, p.2, ?_⟩
    obtain ⟨hR, hC⟩ := mem_alignCentres.mp hp
    exact ⟨hR, hC, hcentre, hnear.1, hnear.2, hu⟩

/-! ### M_TIMING (R263, R264) -/

/-- Row 6 and column 6 of the square, dark where the running index is even. -/
theorem mem_timingWrites {n r c : Nat} {b : Bool} :
    (r, c, b) ∈ timingWrites n ↔ ((c = 6 ∧ r < n) ∨ (r = 6 ∧ c < n)) ∧ b = decide ((r + c) % 2 = 0) := by
  simp only [timingWrites, mem_pairWrites, Prod.mk.injEq]
  constructor
  · rintro ⟨i, hi, ⟨rfl, rfl⟩ | ⟨rfl, rfl⟩, rfl⟩
    · exact ⟨.inl ⟨rfl, hi⟩, decide_eq_decide.mpr (by omega)⟩
    · exact ⟨.inr ⟨rfl, hi⟩, decide_eq_decide.mpr (by omega)⟩
  · rintro ⟨⟨rfl, hi⟩ | ⟨rfl, hi⟩, rfl⟩
    · exact ⟨r, hi, .inl ⟨rfl, rfl⟩, decide_eq_decide.mpr (by omega)⟩
    · exact ⟨c, hi, .inr ⟨rfl, rfl⟩, decide_eq_decide.mpr (by omega)⟩

theorem exec_mTiming (s : State) : exec .mTiming s =
    s.finish (s.needMState (s.mx.mstate = .align) (.ok (s.setGrid (placeTiming s.side s.mx.cells) .timing))) := rfl

/-- Settles O35: where the row and the column cross, both writes are dark. -/
theorem timingPatterns : Obligations.TimingPatterns := by
  intro s timing
  refine ⟨raises_sequenceError (exec_mTiming s), fun hm hstate => ?_⟩
  obtain ⟨-, hg⟩ := State.memOk_iff.mp hm
  have hexec := exec_of_mstate (exec_mTiming s) hstate
  rw [placeTiming_eq] at hexec
  refine completes_of_grid hexec ⟨rfl, fun r c h => ?line, fun r c hno => ?other⟩
  case line =>
    obtain ⟨hu, hrc⟩ := h
    refine (gridGet_placeAll_of_mem hg hu (mem_timingWrites.mpr ⟨hrc, rfl⟩) fun b hb =>
      (mem_timingWrites.mp hb).2).trans ?_
    by_cases heven : (r + c) % 2 = 0 <;> simp [heven, MCell.ofDark]
  case other =>
    show gridGet (gridPlaceAll s.mx.cells (timingWrites s.side)) r c = gridGet s.mx.cells r c
    by_cases hu : gridGet s.mx.cells r c = .unset
    · exact gridGet_placeAll_of_notMem hg fun b hb => hno ⟨hu, (mem_timingWrites.mp hb).1⟩
    · exact gridGet_placeAll_of_set hg hu

/-! ### M_TYPEINFO (R265 to R267) -/

section
variable {n i j : Nat} (hn : 21 ≤ n) (hi : i < 15) (hj : j < 15)

theorem posA_column (n i : Nat) : (posA n i).2 = 8 := by
  unfold posA
  split_ifs <;> rfl

theorem posB_row (n i : Nat) : (posB n i).1 = 8 := by
  unfold posB
  split_ifs <;> rfl

include hn

theorem posB_ne_darkModule : posB n i ≠ (n - 8, 8) := by
  unfold posB
  split_ifs <;> rw [Ne, Prod.mk.injEq] <;> omega

include hi

theorem posA_ne_posB : posA n i ≠ posB n j := by
  unfold posA posB
  split_ifs <;> rw [Ne, Prod.mk.injEq] <;> omega

theorem posA_ne_darkModule : posA n i ≠ (n - 8, 8) := by
  unfold posA
  split_ifs <;> rw [Ne, Prod.mk.injEq] <;> omega

include hj

theorem posA_injective (h : posA n i = posA n j) : i = j := by
  unfold posA at h
  split_ifs at h <;> rw [Prod.mk.injEq] at h <;> omega

theorem posB_injective (h : posB n i = posB n j) : i = j := by
  unfold posB at h
  split_ifs at h <;> rw [Prod.mk.injEq] at h <;> omega

end

section
variable {n w : Nat} {t x : Bool} {r c : Nat}

theorem mem_typeInfoWrites :
    (r, c, x) ∈ typeInfoWrites n w t ↔
      (∃ i < 15, ((r, c) = posA n i ∨ (r, c) = posB n i) ∧ x = (!t && w.testBit i)) ∨
        (r, c) = (n - 8, 8) ∧ x = !t := by
  rw [typeInfoWrites, List.mem_append, mem_pairWrites]
  simp [and_assoc]

variable (hn : 21 ≤ n) {g : Grid} (hg : gridWf g = true) {i : Nat} (hi : i < 15)
include hn hg

/-- The dark module is dark in a real build. -/
theorem gridGet_typeInfo_darkModule (hu : gridGet g (n - 8) 8 = .unset) :
    gridGet (placeTypeInfo n w t g) (n - 8) 8 = .ofDark !t := by
  rw [placeTypeInfo_eq]
  refine gridGet_placeAll_of_mem hg hu (mem_typeInfoWrites.mpr (.inr ⟨rfl, rfl⟩)) fun x hx => ?_
  rcases mem_typeInfoWrites.mp hx with ⟨j, hj, h | h, -⟩ | ⟨-, h⟩
  · exact absurd h.symm (posA_ne_darkModule hn hj)
  · exact absurd h.symm (posB_ne_darkModule hn)
  · exact h

include hi

/-- A(i) takes bit i of the word in a real build. -/
theorem gridGet_typeInfo_posA (hu : gridGet g (posA n i).1 (posA n i).2 = .unset) :
    gridGet (placeTypeInfo n w t g) (posA n i).1 (posA n i).2 = .ofDark (!t && w.testBit i) := by
  rw [placeTypeInfo_eq]
  refine gridGet_placeAll_of_mem hg hu (mem_typeInfoWrites.mpr (.inl ⟨i, hi, .inl rfl, rfl⟩)) fun x hx => ?_
  rcases mem_typeInfoWrites.mp hx with ⟨j, hj, h | h, hx⟩ | ⟨h, -⟩
  · rw [hx, posA_injective hn hi hj h]
  · exact absurd h (posA_ne_posB hn hi)
  · exact absurd h (posA_ne_darkModule hn hi)

/-- B(i) takes bit i of the word in a real build. -/
theorem gridGet_typeInfo_posB (hu : gridGet g (posB n i).1 (posB n i).2 = .unset) :
    gridGet (placeTypeInfo n w t g) (posB n i).1 (posB n i).2 = .ofDark (!t && w.testBit i) := by
  rw [placeTypeInfo_eq]
  refine gridGet_placeAll_of_mem hg hu (mem_typeInfoWrites.mpr (.inl ⟨i, hi, .inr rfl, rfl⟩)) fun x hx => ?_
  rcases mem_typeInfoWrites.mp hx with ⟨j, hj, h | h, hx⟩ | ⟨h, -⟩
  · exact absurd h.symm (posA_ne_posB hn hj)
  · rw [hx, posB_injective hn hi hj h]
  · exact absurd h (posB_ne_darkModule hn)

end

theorem mtest_marked (s : State) (g : Grid) (m : MState) (t : Bool) :
    ((s.setGrid g m).markTest t).complete.mx.mtest = (s.mx.mtest || t) := rfl

theorem cell_marked (s : State) (g : Grid) (m : MState) (t : Bool) (r c : Nat) :
    cell ((s.setGrid g m).markTest t).complete r c = gridGet g r c := rfl

theorem exec_mTypeinfo (s : State) (t : Bool) : exec (.mTypeinfo t) s =
    s.finish (s.needMState (s.mx.mstate = .timing)
      (.ok ((s.setGrid (placeTypeInfo s.side (formatOf s) t s.mx.cells) .typeinfo).markTest t))) := rfl

/-- Settles O36: A(0..14), B(0..14) and the dark module are 31 cells, each with one write. -/
theorem formatInformation : Obligations.FormatInformation := by
  intro s test n A B colour
  refine ⟨raises_sequenceError (exec_mTypeinfo s test), fun hm hn hstate => ?_⟩
  obtain ⟨-, hg⟩ := State.memOk_iff.mp hm
  refine completes_of_marked_grid (exec_of_mstate (exec_mTypeinfo s test) hstate)
    ⟨rfl, mtest_marked s _ _ test, fun i hi hu => ?copyA, fun i hi hu => ?copyB, fun hu => ?darkModule,
      fun r c hrc => ?other⟩
  case copyA => exact (cell_marked s _ _ test _ _).trans (gridGet_typeInfo_posA hn hg hi hu)
  case copyB => exact (cell_marked s _ _ test _ _).trans (gridGet_typeInfo_posB hn hg hi hu)
  case darkModule =>
    refine (cell_marked s _ _ test _ _).trans ((gridGet_typeInfo_darkModule hn hg hu).trans ?_)
    cases test <;> rfl
  case other =>
    rw [cell_marked, placeTypeInfo_eq]
    rcases hrc with hset | ⟨hword, hdark⟩
    · exact gridGet_placeAll_of_set hg hset
    · refine gridGet_placeAll_of_notMem hg fun x hx => ?_
      rcases mem_typeInfoWrites.mp hx with ⟨j, hj, h | h, -⟩ | ⟨h, -⟩
      · exact (hword j hj).1 h
      · exact (hword j hj).2 h
      · exact hdark h

/-! ### M_TYPENUM (R268, R269) -/

section
variable {n i j : Nat} (hn : 21 ≤ n) (hi : i < 18) (hj : j < 18)

theorem posV1_injective (h : posV1 n i = posV1 n j) : i = j := by
  rw [posV1, posV1, Prod.mk.injEq] at h
  omega

theorem posV2_injective (h : posV2 n i = posV2 n j) : i = j := by
  rw [posV2, posV2, Prod.mk.injEq] at h
  omega

include hn hi

theorem posV1_ne_posV2 : posV1 n i ≠ posV2 n j := by
  rw [posV1, posV2, Ne, Prod.mk.injEq]
  omega

end

section
variable {v n : Nat} {t x : Bool} {r c : Nat}

theorem mem_typeNumWrites :
    (r, c, x) ∈ typeNumWrites v n t ↔
      7 ≤ v ∧ ∃ i < 18, ((r, c) = posV1 n i ∨ (r, c) = posV2 n i) ∧ x = (!t && (bchVerWord v).testBit i) := by
  unfold typeNumWrites
  split
  · next h => rw [mem_pairWrites, and_iff_right h]
  · next h => simp [h]

variable (hn : 21 ≤ n) {g : Grid} (hg : gridWf g = true) (h7 : 7 ≤ v) {i : Nat} (hi : i < 18)
include hn hg h7 hi

/-- V1(i) takes bit i of the version word in a real build. -/
theorem gridGet_typeNum_posV1 (hu : gridGet g (posV1 n i).1 (posV1 n i).2 = .unset) :
    gridGet (placeTypeNum v n t g) (posV1 n i).1 (posV1 n i).2 = .ofDark (!t && (bchVerWord v).testBit i) := by
  rw [placeTypeNum_eq]
  refine gridGet_placeAll_of_mem hg hu (mem_typeNumWrites.mpr ⟨h7, i, hi, .inl rfl, rfl⟩) fun x hx => ?_
  obtain ⟨-, j, hj, h | h, hx⟩ := mem_typeNumWrites.mp hx
  · rw [hx, posV1_injective h]
  · exact absurd h (posV1_ne_posV2 hn hi)

/-- V2(i) takes bit i of the version word in a real build. -/
theorem gridGet_typeNum_posV2 (hu : gridGet g (posV2 n i).1 (posV2 n i).2 = .unset) :
    gridGet (placeTypeNum v n t g) (posV2 n i).1 (posV2 n i).2 = .ofDark (!t && (bchVerWord v).testBit i) := by
  rw [placeTypeNum_eq]
  refine gridGet_placeAll_of_mem hg hu (mem_typeNumWrites.mpr ⟨h7, i, hi, .inr rfl, rfl⟩) fun x hx => ?_
  obtain ⟨-, j, hj, h | h, hx⟩ := mem_typeNumWrites.mp hx
  · exact absurd h.symm (posV1_ne_posV2 hn hj)
  · rw [hx, posV2_injective h]

end

theorem exec_mTypenum (s : State) (t : Bool) : exec (.mTypenum t) s =
    s.finish (s.needMState (s.mx.mstate = .typeinfo)
      (.ok ((s.setGrid (placeTypeNum s.conf.ver.toNat s.side t s.mx.cells) .typenum).markTest t))) := rfl

/-- Settles O37: from version 7 on V1(0..17) and V2(0..17) are 36 cells, each with one write. -/
theorem versionInformation : Obligations.VersionInformation := by
  intro s test n v colour
  refine ⟨raises_sequenceError (exec_mTypenum s test), fun hm hn hstate => ?_⟩
  obtain ⟨-, hg⟩ := State.memOk_iff.mp hm
  refine completes_of_marked_grid (exec_of_mstate (exec_mTypenum s test) hstate)
    ⟨rfl, mtest_marked s _ _ test, fun h7 i hi hu => ?block1, fun h7 i hi hu => ?block2, fun r c hrc => ?other⟩
  case block1 => exact (cell_marked s _ _ test _ _).trans (gridGet_typeNum_posV1 hn hg h7 hi hu)
  case block2 => exact (cell_marked s _ _ test _ _).trans (gridGet_typeNum_posV2 hn hg h7 hi hu)
  case other =>
    rw [cell_marked, placeTypeNum_eq]
    by_cases hset : gridGet s.mx.cells r c = .unset
    · refine gridGet_placeAll_of_notMem hg fun x hx => ?_
      obtain ⟨h7, j, hj, h⟩ := mem_typeNumWrites.mp hx
      rcases hrc with hlt | hset' | hword
      · omega
      · exact hset' hset
      · exact h.1.elim (hword j hj).1 (hword j hj).2
    · exact gridGet_placeAll_of_set hg hset

end Sys2Proof.Machine

/-! # The one-command build

The cells of the format information, of the dark module and of the version information lie along the three finders,
where no finder, alignment or timing pattern falls (R273); so a build writes its information there, and keeps it. -/

namespace Sys2Proof.Machine

open Sys2Proof.Claims

/-! ### M_BUILD (R308) -/

theorem exec_mBuild (s : State) (t : Bool) : exec (.mBuild t) s =
    s.finish (raiseIf (s.conf.ver = 0) { code := .badParameter, info := 0 }
      (s.needStream (.ok { s with mx := s.buildMatrix t s.conf.mask.toNat }))) := rfl

/-- With a version and a valid stream M_BUILD completes. -/
theorem exec_mBuild_ready {s : State} (hver : s.conf.ver ≠ 0) (hready : s.cw.ready = true) (t : Bool) :
    exec (.mBuild t) s = s.finish (.ok { s with mx := s.buildMatrix t s.conf.mask.toNat }) :=
  exec_of_not_bad (exec_of_not_bad (exec_mBuild s t) hver) (by simp [hready])

theorem cell_build (s : State) (t : Bool) (m r c : Nat) :
    cell { s with mx := s.buildMatrix t m }.complete r c = gridGet (s.built t m) r c := rfl

theorem ver_toNat_ne_zero {s : State} (h : s.conf.ver ≠ 0) : s.conf.ver.toNat ≠ 0 :=
  fun h0 => h (BitVec.eq_of_toNat_eq h0)

/-- Settles O42: the checks in order, then the build of a cleared square. -/
theorem buildResolvesEveryModule : Obligations.BuildResolvesEveryModule := by
  intro s test n
  refine ⟨raises_of_bad (exec_mBuild s test), fun hver hno => ?noStream, fun hm hver h40 hready => ?built⟩
  case noStream => exact statusIdle_eq s ▸ raises_of_bad (exec_of_not_bad (exec_mBuild s test) hver) hno
  case built =>
    obtain ⟨-, hg⟩ := State.memOk_iff.mp hm
    have hver0 := ver_toNat_ne_zero hver
    refine completes_of_matrix (exec_mBuild_ready hver hready test)
      ⟨side_toNat h40, rfl, rfl, fun r c hr hc => ?inside, fun r c hrc => ?outside⟩
    case inside => exact buildCells_squareSet hg h40 hver0 _ _ _ _ r c hr hc
    case outside => exact buildCells_outside hg h40 hver0 _ _ _ _ hrc

/-! ### The cells along the finders -/

/-- The positions of a version are 6, the one 7 from the far edge, and others far from both edges (R260). -/
theorem alignPos_places : ∀ v ≤ Config.maxVer, ∀ a ∈ alignPos v,
    a = 6 ∨ a + 7 = sideOf v ∨ 18 ≤ a ∧ a + 23 ≤ sideOf v := by
  decide +kernel

theorem finderCell_eq_none_iff {n r c : Nat} :
    finderCell n r c = none ↔
      ¬ (r ≤ 7 ∧ c ≤ 7) ∧ ¬ (n ≤ r + 8 ∧ r < n ∧ c ≤ 7) ∧ ¬ (r ≤ 7 ∧ n ≤ c + 8 ∧ c < n) := by
  unfold finderCell
  split_ifs <;> simp [*]

/-- A cell beside a finder, outside the three finders and the two timing lines: within the first nine columns and the
first nine or last eleven rows, or the other way round. -/
structure Beside (n r c : Nat) : Prop where
  place : c ≤ 8 ∧ r < n ∧ (r ≤ 8 ∨ n ≤ r + 11) ∨ r ≤ 8 ∧ c < n ∧ (c ≤ 8 ∨ n ≤ c + 11)
  finder : finderCell n r c = none
  row : r ≠ 6
  column : c ≠ 6

section
variable {v : Nat} {g : Grid} (hg : gridWf g = true) (hv : v ≤ Config.maxVer) (hv0 : v ≠ 0) {r c : Nat}

include hv hv0 in
/-- The stamps near such a cell have their centres in a finder, so they are not made. -/
theorem Beside.not_near (h : Beside (sideOf v) r c) {p : Nat × Nat} (hp : p ∈ alignCentres v)
    (hcentre : finderCell (sideOf v) p.1 p.2 = none) : ¬ Near p.1 p.2 r c := by
  obtain ⟨hR, hC⟩ := mem_alignCentres.mp hp
  have hrow := alignPos_places v hv _ hR
  have hcol := alignPos_places v hv _ hC
  have hplace := h.place
  have hn := le_sideOf hv0
  rw [finderCell_eq_none_iff] at hcentre
  unfold Near distance
  omega

include hg hv0

/-- In a build the finders set the cells of the three corners and no other of the square. -/
theorem gridGet_probedCells_eq_unset_iff (hr : r < sideOf v) (hc : c < sideOf v) :
    gridGet (probedCells v g) r c = .unset ↔ finderCell (sideOf v) r c = none := by
  have hn := le_sideOf hv0
  have hwf := gridWf_clear hg (sideOf v)
  rw [probedCells, placeProbes_eq]
  refine ⟨fun hu => Option.eq_none_iff_forall_ne_some.mpr fun b hb => ?_, fun hnone => ?_⟩
  · exact gridGet_placeAll_ne_unset hwf ((mem_finderWrites hn).mpr hb) hu
  · have hno : ∀ b, (r, c, b) ∉ finderWrites (sideOf v) := fun b hb =>
      nomatch hnone.symm.trans ((mem_finderWrites hn).mp hb)
    rw [gridGet_placeAll_of_notMem hwf hno, gridGet_clear hg, if_pos ⟨hr, hc⟩]

include hv

/-- In a build M_TIMING and the commands before it leave such a cell UNSET. -/
theorem Beside.timed_unset (h : Beside (sideOf v) r c) : gridGet (timedCells v g) r c = .unset := by
  have hwf := (probedCells_extends hg v).wf
  have hv64 : v < 64 := Nat.lt_of_le_of_lt hv (by decide)
  have hlow : ∀ p ∈ alignCentres v, 2 ≤ p.1 ∧ 2 ≤ p.2 := fun _ => alignCentres_low hv64
  have hprobed : gridGet (probedCells v g) r c = .unset := by
    have hn := le_sideOf hv0
    have hplace := h.place
    exact (gridGet_probedCells_eq_unset_iff hg hv0 (by omega) (by omega)).mpr h.finder
  have hstamp : ∀ p ∈ alignCentres v, ¬ Stamped (probedCells v g) p r c := fun p hp ⟨hcentre, hnear, _⟩ => by
    obtain ⟨hR, hC⟩ := mem_alignCentres.mp hp
    have hRlt := alignPos_bound v hv _ hR
    have hClt := alignPos_bound v hv _ hC
    exact h.not_near hv hv0 hp ((gridGet_probedCells_eq_unset_iff hg hv0 (by omega) (by omega)).mp hcentre) hnear
  have hline : ∀ b, (r, c, b) ∉ timingWrites (sideOf v) := fun b hb =>
    (mem_timingWrites.mp hb).1.elim (fun hc => h.column hc.1) fun hr => h.row hr.1
  rw [timedCells, placeTiming_eq, gridGet_placeAll_of_notMem (gridWf_align hwf v) hline, placeAlign_eq,
    gridGet_alignAll_of_not_stamped hlow hwf hstamp, hprobed]

end

section
variable {n i : Nat} (hn : 21 ≤ n)
include hn

theorem beside_of_column8 {r : Nat} (h : r ≤ 8 ∧ r ≠ 6 ∨ n ≤ r + 8 ∧ r < n) : Beside n r 8 := by
  refine ⟨?_, finderCell_eq_none_iff.mpr ?_, ?_, ?_⟩ <;> omega

theorem beside_of_row8 {c : Nat} (h : c ≤ 8 ∧ c ≠ 6 ∨ n ≤ c + 8 ∧ c < n) : Beside n 8 c := by
  refine ⟨?_, finderCell_eq_none_iff.mpr ?_, ?_, ?_⟩ <;> omega

theorem beside_posA (hi : i < 15) : Beside n (posA n i).1 (posA n i).2 := by
  unfold posA
  split_ifs <;> exact beside_of_column8 hn (by omega)

theorem beside_posB (hi : i < 15) : Beside n (posB n i).1 (posB n i).2 := by
  unfold posB
  split_ifs <;> exact beside_of_row8 hn (by omega)

theorem beside_darkModule : Beside n (n - 8) 8 := beside_of_column8 hn (by omega)

omit hn in
theorem beside_posV1 (hn : 45 ≤ n) (hi : i < 18) : Beside n (posV1 n i).1 (posV1 n i).2 := by
  rw [posV1]
  refine ⟨?_, finderCell_eq_none_iff.mpr ?_, ?_, ?_⟩ <;> dsimp only <;> omega

omit hn in
theorem beside_posV2 (hn : 45 ≤ n) (hi : i < 18) : Beside n (posV2 n i).1 (posV2 n i).2 := by
  rw [posV2]
  refine ⟨?_, finderCell_eq_none_iff.mpr ?_, ?_, ?_⟩ <;> dsimp only <;> omega

end

/-! ### What a build keeps of the information -/

/-- The format information and the dark module lie on row 8 and column 8. -/
theorem typeInfoWrites_line8 {n w r c : Nat} {t x : Bool} (h : (r, c, x) ∈ typeInfoWrites n w t) : r = 8 ∨ c = 8 := by
  rcases mem_typeInfoWrites.mp h with ⟨j, -, h | h, -⟩ | ⟨h, -⟩
  · exact .inr ((congrArg Prod.snd h).trans (posA_column n j))
  · exact .inl ((congrArg Prod.fst h).trans (posB_row n j))
  · exact .inr (congrArg Prod.snd h)

section
variable {v : Nat} {g : Grid} (hg : gridWf g = true) (hv : v ≤ Config.maxVer) (hv0 : v ≠ 0) (e m : Nat) (t : Bool)
  (S : List Byte) {r c : Nat}
include hg hv hv0

/-- What M_TYPENUM and the commands before it set, the build keeps. -/
theorem buildCells_of_informed {b : Bool} (h : gridGet (informedCells v e m t g) r c = .ofDark b) :
    gridGet (buildCells v e m t S g) r c = .ofDark b :=
  ((buildCells_extends hg hv hv0 e m t S).keeps r c (h ▸ MCell.ofDark_ne_unset b)).trans h

/-- What M_TYPEINFO sets, the build keeps. -/
theorem buildCells_of_format {b : Bool} (h : gridGet (formatCells v e m t g) r c = .ofDark b) :
    gridGet (buildCells v e m t S g) r c = .ofDark b :=
  buildCells_of_informed hg hv hv0 e m t S
    (((informedCells_extends hg hv hv0 e m t).keeps r c (h ▸ MCell.ofDark_ne_unset b)).trans h)

/-- After a build the format word and the dark module read back (R265, R266). -/
theorem buildCells_format {i : Nat} (hi : i < 15) :
    gridGet (buildCells v e m t S g) (posA (sideOf v) i).1 (posA (sideOf v) i).2 =
        .ofDark (!t && (formatWord e m).testBit i) ∧
      gridGet (buildCells v e m t S g) (posB (sideOf v) i).1 (posB (sideOf v) i).2 =
        .ofDark (!t && (formatWord e m).testBit i) := by
  have hn := le_sideOf hv0
  have hwf := (timedCells_extends hg hv).wf
  exact ⟨buildCells_of_format hg hv hv0 e m t S
      (gridGet_typeInfo_posA hn hwf hi ((beside_posA hn hi).timed_unset hg hv hv0)),
    buildCells_of_format hg hv hv0 e m t S
      (gridGet_typeInfo_posB hn hwf hi ((beside_posB hn hi).timed_unset hg hv hv0))⟩

theorem buildCells_darkModule :
    gridGet (buildCells v e m t S g) (sideOf v - 8) 8 = .ofDark !t := by
  have hn := le_sideOf hv0
  exact buildCells_of_format hg hv hv0 e m t S (gridGet_typeInfo_darkModule hn (timedCells_extends hg hv).wf
    ((beside_darkModule hn).timed_unset hg hv hv0))

/-- Off row 8 and column 8 M_TYPEINFO leaves such a cell UNSET. -/
theorem Beside.format_unset (h : Beside (sideOf v) r c) (hline : ¬ (r = 8 ∨ c = 8)) :
    gridGet (formatCells v e m t g) r c = .unset := by
  rw [formatCells, placeTypeInfo_eq, gridGet_placeAll_of_notMem (timedCells_extends hg hv).wf
    fun x hx => hline (typeInfoWrites_line8 hx)]
  exact h.timed_unset hg hv hv0

/-- After a build from version 7 on the version word reads back (R268). -/
theorem buildCells_version (h7 : 7 ≤ v) {i : Nat} (hi : i < 18) :
    gridGet (buildCells v e m t S g) (posV1 (sideOf v) i).1 (posV1 (sideOf v) i).2 =
        .ofDark (!t && (bchVerWord v).testBit i) ∧
      gridGet (buildCells v e m t S g) (posV2 (sideOf v) i).1 (posV2 (sideOf v) i).2 =
        .ofDark (!t && (bchVerWord v).testBit i) := by
  have hn : 45 ≤ sideOf v := by unfold sideOf; omega
  have hwf := (formatCells_extends hg hv hv0 e m t).wf
  have hline1 : ¬ ((posV1 (sideOf v) i).1 = 8 ∨ (posV1 (sideOf v) i).2 = 8) := by
    rw [posV1]
    omega
  have hline2 : ¬ ((posV2 (sideOf v) i).1 = 8 ∨ (posV2 (sideOf v) i).2 = 8) := by
    rw [posV2]
    omega
  exact ⟨buildCells_of_informed hg hv hv0 e m t S (gridGet_typeNum_posV1 (by omega) hwf h7 hi
      ((beside_posV1 hn hi).format_unset hg hv hv0 e m t hline1)),
    buildCells_of_informed hg hv hv0 e m t S (gridGet_typeNum_posV2 (by omega) hwf h7 hi
      ((beside_posV2 hn hi).format_unset hg hv hv0 e m t hline2))⟩

end

/-- Settles O44: the build of the state's configuration, as a real one. -/
theorem realBuildCarriesItsInformation : Obligations.RealBuildCarriesItsInformation := by
  intro s t hm hver h40 hready hexec n colour
  obtain ⟨-, hg⟩ := State.memOk_iff.mp hm
  have hver0 := ver_toNat_ne_zero hver
  obtain rfl := next_inj ((exec_mBuild_ready hver hready false).symm.trans hexec)
  simp only [cell_build]
  exact ⟨fun i hi => buildCells_format hg h40 hver0 _ _ false _ hi, buildCells_darkModule hg h40 hver0 _ _ false _,
    fun h7 i hi => buildCells_version hg h40 hver0 _ _ false _ h7 hi⟩

end Sys2Proof.Machine

/-! # The halted block and the resets -/

namespace Sys2Proof.Machine

open Sys2Proof.Claims

/-! ### The turns of an idle block -/

theorem step_read {s : State} {addr : Nat} {rest : List Turn} (h : NextTurn s (.read addr) rest) :
    step s = .next (s.popTurn.busRead addr) := by
  unfold step
  rw [h]

theorem step_rstN {s : State} {level : Bool} {rest : List Turn} (h : NextTurn s (.rstN level) rest) :
    step s = .next (s.popTurn.setRstN level) := by
  unfold step
  rw [h]

section
variable {s : State} {addr off : Nat}

theorem selects_of_select (h : s.select addr = some off) : Selects s addr off := by
  unfold State.select at h
  split at h
  · next hin =>
    obtain ⟨hlo, hhi⟩ := hin
    have hlt : addr - s.inst.blockBase < 4096 := Nat.sub_lt_left_of_lt_add hlo hhi
    exact ⟨_, hlt, (Nat.add_sub_cancel' hlo).symm, (Option.some.inj h).symm⟩
  · cases h

theorem busRead_blockUnchanged (s : State) (addr : Nat) : BlockUnchanged s (s.busRead addr) := by
  unfold State.busRead
  split <;> rfl

theorem busRead_rstN (s : State) (addr : Nat) : (s.busRead addr).outside.rstN = s.outside.rstN := by
  unfold State.busRead
  split <;> rfl

/-- No draw is made while the block is idle (R367). -/
theorem busRead_draws (hb : s.busy = false) (addr : Nat) : (s.busRead addr).outside.draws = s.outside.draws := by
  unfold State.busRead
  split
  · rfl
  · simp [State.drawsAt, hb]

/-- A read of an idle block returns what the register map holds (R40). -/
theorem busRead_readData (hb : s.busy = false) (h : Selects s addr off) :
    (s.busRead addr).outside.readData = some (regMap s false off) := by
  have h4 : off % 4 = 0 := by
    obtain ⟨a, -, -, rfl⟩ := h
    omega
  rw [State.busRead, select_of_selects h, ← (readValue_idle hb h4).2]

end

/-! ### The halted block (R335, R336) -/

section
variable {s : State} {x : Turn} {rest : List Turn}

/-- A halted block ignores every write but the soft reset (R335). -/
theorem busWrite_halted {addr : Nat} {w : Word} (he : s.Halted) (hx : ¬ IsReset s (.write addr w)) :
    s.busWrite addr w = s := by
  unfold State.busWrite
  split
  · rfl
  · split
    · rfl
    · next off hsel =>
      split_ifs with hcmd hctrl
      · exact State.writeCmd_halted he
      · rw [State.writeCtrl, if_neg fun hw => hx ⟨hctrl ▸ selects_of_select hsel, hw⟩]
      · rfl

/-- A turn that is no reset leaves an idle halted block as it was. -/
theorem State.Halted.step_unchanged (he : s.Halted) (hb : s.busy = false) (hnext : NextTurn s x rest)
    (hx : ¬ IsReset s x) :
    ∃ t, step s = .next t ∧ BlockUnchanged s t ∧ t.outside.turns = rest ∧
      ∀ addr off, x = .read addr → Selects s addr off → t.outside.readData = some (regMap s false off) := by
  have hrest : s.popTurn.outside.turns = rest := congrArg List.tail hnext
  cases x with
  | block =>
    exact ⟨s.popTurn, (step_block (.inr ⟨rest, hnext⟩)).trans (blockTurn_idle hb), rfl, hrest, nofun⟩
  | write addr w =>
    refine ⟨s.popTurn, ?_, rfl, hrest, nofun⟩
    rw [step_write hnext, busWrite_halted (s := s.popTurn) he hx]
  | read addr =>
    refine ⟨_, step_read hnext, busRead_blockUnchanged s.popTurn addr, ?_, ?_⟩
    · rw [State.busRead_turns, hrest]
    · rintro _ off ⟨⟩ hsel
      exact busRead_readData (s := s.popTurn) hb hsel
  | rstN level =>
    cases level with
    | false => exact absurd rfl hx
    | true => exact ⟨_, step_rstN hnext, rfl, hrest, nofun⟩

end

/-- Settles O47: without a turn to come an idle block idles, and no turn but a reset reaches a halted one. -/
theorem haltedUntilReset : Obligations.HaltedUntilReset := by
  refine fun s he hb => ⟨fun hnil => ?_, fun _ _ hnext hx => he.step_unchanged hb hnext hx⟩
  rw [step_block (.inl hnil), State.popTurn_of_nil hnil, blockTurn_idle hb]

/-! ### The two resets (R360 to R362) -/

section
variable (p : Config.Params) (o : Outside)

theorem resetOf_resetValues : ResetValues (State.resetOf p o) := by
  refine ⟨fun k => ?_, fun k => ?_, rfl, rfl, rfl, rfl, rfl, rfl, rfl, rfl, fun m => ?_, rfl, rfl, rfl, rfl, rfl⟩
  all_goals exact Vector.getElem_replicate _

theorem resetOf_status : regMap (State.resetOf p o) false 0x004 = 0 := rfl

theorem resetOf_cfg : regMap (State.resetOf p o) false 0x01C =
    BitVec.ofNat 32 (match p.n4Mode with | .exact => 0 | .floor => 2 ^ 16) := by
  have hcfg : cfgNat (State.resetOf p o) = match p.n4Mode with | .exact => 0 | .floor => 2 ^ 16 := by
    obtain ⟨mode, base⟩ := p
    cases mode <;> simp [cfgNat, State.resetOf, Conf.reset]
  exact (regMap_eq _ false rfl).trans (congrArg _ hcfg)

theorem resetOf_id : regMap (State.resetOf p o) false 0x000 = 0x51524331 := rfl

end

/-- A CTRL write resets the block or does nothing, as its bit 0 says (R43, R361). -/
theorem step_ctrlWrite {s : State} {addr : Nat} {w : Word} {rest : List Turn} (h : NextTurn s (.write addr w) rest)
    (hsel : Selects s addr 0x104) (hr : s.outside.rstN = true) :
    step s = .next (if w.getLsbD 0 then State.resetOf s.inst s.popTurn.outside else s.popTurn) := by
  have hs : s.popTurn.select addr = some 0x104 := select_of_selects hsel
  rw [step_write h, State.busWrite_of_select (s := s.popTurn) hr hs]
  rfl

theorem setRstN_low (s : State) : s.setRstN false = State.resetOf s.inst { s.outside with rstN := false } := rfl

/-- Both resets leave the reset state. -/
theorem step_reset {s : State} {x : Turn} {rest : List Turn} (h : NextTurn s x rest) (hx : IsReset s x)
    (hr : s.outside.rstN = true) : ∃ o, step s = .next (State.resetOf s.inst o) := by
  cases x with
  | block | read => exact hx.elim
  | write addr w =>
    obtain ⟨hsel, hw⟩ := hx
    exact ⟨_, (step_ctrlWrite h hsel hr).trans (by rw [if_pos hw])⟩
  | rstN level =>
    obtain rfl : level = false := hx
    exact ⟨_, step_rstN h⟩

/-- Settles O49: a reset leaves `State.resetOf`, whose elements the table lists. -/
theorem resetState : Obligations.ResetState := by
  refine ⟨fun p o => ⟨resetOf_resetValues p o, resetOf_status p o, resetOf_cfg p o, resetOf_id p o⟩, ?_⟩
  intro s x rest hnext hx hr
  obtain ⟨o, ho⟩ := step_reset hnext hx hr
  exact ⟨_, ho, resetOf_resetValues s.inst o, rfl⟩

/-- Settles O50: the CTRL write, STATUS after it, and that a turn which is no reset leaves the block halted. -/
theorem softReset : Obligations.SoftReset := by
  refine ⟨fun s addr w rest hnext hsel hr => step_ctrlWrite hnext hsel hr, resetOf_status, ?_⟩
  intro s t he hb hst hleft
  cases hturns : s.outside.turns with
  | nil =>
    obtain rfl := next_inj ((haltedUntilReset s he hb).1 hturns ▸ hst)
    exact absurd he hleft
  | cons x rest =>
    refine ⟨x, rest, hturns, by_contra fun hx => ?_⟩
    obtain ⟨u, hu, hsame, -⟩ := he.step_unchanged hb hturns hx
    obtain rfl := next_inj (hu.symm.trans hst)
    exact hleft (by rw [hsame]; exact he)

/-! ### While RST_N = 0 (R362) -/

/-- The block is in the reset state (R360). -/
def State.Held (s : State) : Prop := s = State.resetOf s.inst s.outside

/-- A turn that leaves the block as it was leaves it in the reset state. -/
theorem State.Held.unchanged {s t : State} (h : s.Held) (hst : BlockUnchanged s t) :
    t = State.resetOf s.inst t.outside :=
  hst.trans (congrArg (fun u : State => { u with outside := t.outside }) h)

/-- While RST_N = 0 a turn that leaves it there leaves the block in the reset state, and reads return its values. -/
theorem State.Held.step_held {s : State} {x : Turn} {rest : List Turn} (h : s.Held) (hr : s.outside.rstN = false)
    (hnext : NextTurn s x rest) (hx : x ≠ .rstN true) :
    ∃ t, step s = .next t ∧ t = State.resetOf s.inst t.outside ∧ t.outside.rstN = false ∧
      ∀ addr off, x = .read addr → Selects s addr off →
        t.outside.readData = some (regMap (State.resetOf s.inst s.outside) false off) := by
  have hb : s.popTurn.busy = false := congrArg State.busy h
  have hpop : s.popTurn = State.resetOf s.inst s.popTurn.outside := h.unchanged rfl
  cases x with
  | block => exact ⟨s.popTurn, (step_block (.inr ⟨rest, hnext⟩)).trans (blockTurn_idle hb), hpop, hr, nofun⟩
  | write addr w =>
    refine ⟨s.popTurn, ?_, hpop, hr, nofun⟩
    rw [step_write hnext, State.busWrite, if_pos (show s.popTurn.outside.rstN = false from hr)]
  | read addr =>
    refine ⟨_, step_read hnext, h.unchanged (busRead_blockUnchanged s.popTurn addr), ?_, ?_⟩
    · rw [busRead_rstN]
      exact hr
    · rintro _ off ⟨⟩ hsel
      rw [← show s = State.resetOf s.inst s.outside from h]
      exact busRead_readData (s := s.popTurn) hb hsel
  | rstN level =>
    obtain rfl : level = false := by simpa using hx
    exact ⟨_, step_rstN hnext, rfl, rfl, nofun⟩

/-- Settles O51: the fall of RST_N, the turns while it is 0, and the CMD write after its rise. -/
theorem hardwareReset : Obligations.HardwareReset := by
  refine ⟨fun s rest hnext => ⟨_, step_rstN hnext, rfl, rfl⟩, rfl, fun s hr h => ⟨?held, ?released⟩⟩
  case held => exact fun x rest hnext hx => State.Held.step_held h hr hnext hx
  case released =>
    intro addr w rest hnext hsel
    have ht : s.popTurn.setRstN true = State.resetOf s.inst (s.popTurn.setRstN true).outside :=
      State.Held.unchanged h rfl
    have hturns : NextTurn (s.popTurn.setRstN true) (.write addr w) rest := congrArg List.tail hnext
    have hs : (s.popTurn.setRstN true).popTurn.select addr = some 0x100 := select_of_selects hsel
    have hb : (s.popTurn.setRstN true).busy = false := by rw [ht]; rfl
    have he : (s.popTurn.setRstN true).error.err = false := by rw [ht]; rfl
    refine ⟨_, _, step_rstN hnext, ht, hb, step_write hturns, ?_⟩
    rw [State.busWrite_of_select rfl hs, if_pos rfl,
      State.writeCmd_idle (s := (s.popTurn.setRstN true).popTurn) he hb]
    exact ⟨rfl, rfl⟩

/-- Settles O54: the reset state lists no cell, has no stream and no matrix, and its control state is at rest. -/
theorem resetIsSound : Obligations.ResetIsSound := by
  have sound (p : Config.Params) (o : Outside) : (State.resetOf p o).MemOk ∧ (State.resetOf p o).Shaped ∧
      (State.resetOf p o).StreamOk ∧ (State.resetOf p o).BuildOk ∧ (State.resetOf p o).ControlOk :=
    ⟨resetOf_memWf p o, resetOf_shaped p o, nofun, .of_not_timed (by simp [MState.timed, State.resetOf, Matrix.reset]),
      .resetOf p o⟩
  rintro s (rfl | ⟨p, o, rfl⟩)
  · exact sound _ _
  · exact sound p o

end Sys2Proof.Machine

/-! # The overrun

No command reads or writes the refused word (`exec_endsAlike`): the command in execution ends as it would have without
it, and CMD_OVERRUN is recorded after it. -/

namespace Sys2Proof.Machine

open Sys2Proof.Claims

/-! ### The refused word (R337) -/

/-- The state with another refused word. -/
def State.withOverrun (s : State) (o : Option Word) : State := { s with overrun := o }

/-- A command on a state and on the state with another refused word: both end alike. -/
def EndsAlike (o : Option Word) (x x' : Outcome) : Prop := ∃ t, x = .next t ∧ x' = .next (t.withOverrun o)

theorem Matched.endsAlike {s : State} {o : Option Word} {r r' : Effect}
    (h : Matched (fun t t' => t' = t.withOverrun o) r r') :
    EndsAlike o (s.finish r) ((s.withOverrun o).finish r') := by
  cases r with
  | ok t =>
    cases r' with
    | ok t' => exact ⟨_, rfl, congrArg (fun u : State => Host.Outcome.next u.complete) h⟩
    | error e => exact h.elim
  | error e =>
    cases r' with
    | ok t' => exact h.elim
    | error e' => exact ⟨_, rfl, congrArg (fun x => Host.Outcome.next ((s.withOverrun o).raised x)) (Eq.symm h)⟩

theorem State.setGrid_withOverrun (s : State) (o : Option Word) (g : Grid) (m : MState) :
    (s.withOverrun o).setGrid g m = (s.setGrid g m).withOverrun o := rfl

theorem State.withMatrix_withOverrun (s : State) (o : Option Word) (m : Matrix) :
    ({ s.withOverrun o with mx := m } : State) = ({ s with mx := m } : State).withOverrun o := rfl

theorem State.selected_withOverrun (s : State) (o : Option Word) (trials : List ScoreRegs) :
    (s.withOverrun o).selected trials = (s.selected trials).withOverrun o := rfl

/-- No command reads or writes the refused word. -/
theorem exec_endsAlike (i : Instr) (s : State) (o : Option Word) :
    EndsAlike o (exec i s) (exec i (s.withOverrun o)) := by
  cases i with
  | nop | li | lui | add | sub | xor | rdsr | gfExp | gfExpi | pClr | pCopy | pLen | bbClr =>
    exact ⟨_, rfl, rfl⟩
  | setver | setecl | setmask | pGet | bbGetbit | bbGetbyte | bchFmt | bchVer =>
    exact Matched.endsAlike (.raiseIf fun _ => rfl)
  | gfLog | gfMul | pPushi | pNorm | pMul | pMod | pGen | bbPut | bbPutr =>
    exact Matched.endsAlike (.bind fun _ => rfl)
  | pPush | bbFinal | tblQ => exact Matched.endsAlike (.raiseIf fun _ => .bind fun _ => rfl)
  | cwRd | mRead | maskq => exact Matched.endsAlike (.raiseIf fun _ => .raiseIf fun _ => rfl)
  | rsEncode => exact Matched.endsAlike (.raiseIf fun _ => .raiseIf fun _ => .bind fun _ => rfl)
  | mInit | mProbes | mAlign | mTiming | mTypeinfo | mTypenum | mScore =>
    exact Matched.endsAlike (.raiseIf fun _ => rfl)
  | mMap => exact Matched.endsAlike (.raiseIf fun _ => .raiseIf fun _ => s.setGrid_withOverrun o _ _)
  | mBuild => exact Matched.endsAlike (.raiseIf fun _ => .raiseIf fun _ => s.withMatrix_withOverrun o _)
  | mSelect => exact Matched.endsAlike (.raiseIf fun _ => .raiseIf fun _ => s.selected_withOverrun o _)

/-- The block's turn with the word w refused: as without it, and then CMD_OVERRUN unless the command raised (R337). -/
theorem runCommand_refused {s : State} (ho : s.overrun = none) (w : Word) :
    ∃ u, runCommand s = .next u ∧ u.overrun = none ∧ runCommand (s.withOverrun (some w)) =
      .next (u.withOverrun (some w)).settleOverrun := by
  rcases runCommand_cases s with ⟨i, hdec, hrun⟩ | ⟨e, hdec, hrun⟩
  · obtain ⟨u, hu, hu'⟩ := exec_endsAlike i s (some w)
    obtain ⟨-, hover, -, -⟩ := exec_keeps hu
    have hnone : u.overrun = none := hover.trans ho
    refine ⟨u, ?_, hnone, ?_⟩
    · rw [hrun, hu, afterCommand, State.settleOverrun_none hnone]
    · rw [runCommand_decoded (s := s.withOverrun (some w)) hdec, hu', afterCommand]
  · refine ⟨s.raised illegalCommand, ?_, ho, ?_⟩
    · rw [hrun, State.settleOverrun_none (s := s.raised _) ho]
    · unfold runCommand
      rw [show (s.withOverrun (some w)).cmd = s.cmd from rfl, hdec]
      rfl

section
variable {u : State} (hu : u.overrun = none) (w : Word)
include hu

theorem withOverrun_none : u.withOverrun none = u := by
  rw [← hu]
  rfl

theorem settleOverrun_refused (he : u.error.err = false) : (u.withOverrun (some w)).settleOverrun =
    { u with error := { err := true, code := .cmdOverrun, cmd := w, info := 0, cnt := u.cmdCnt } } := by
  conv_rhs => rw [← withOverrun_none hu]
  exact if_neg (by simp [State.withOverrun, he])

theorem settleOverrun_refused_raised (he : u.error.err = true) : (u.withOverrun (some w)).settleOverrun = u := by
  conv_rhs => rw [← withOverrun_none hu]
  exact if_pos he

end

/-- Settles O48: the command in execution does not see the refused word, which is recorded after it. -/
theorem commandOverrun : Obligations.CommandOverrun := by
  intro s addr w rest hnext hsel hr hb he ho quiet
  have hs : s.popTurn.select addr = some 0x100 := select_of_selects hsel
  have hwrite : step s = .next (s.popTurn.withOverrun (some w)) := by
    rw [step_write hnext, State.busWrite_of_select (s := s.popTurn) hr hs, if_pos rfl,
      State.writeCmd_busy (s := s.popTurn) he hb ho]
    rfl
  have hturns : s.popTurn.outside.turns = .block :: rest := congrArg List.tail hnext
  have hquiet : quiet = s.popTurn :=
    congrArg (fun turns => { s with outside := { s.outside with turns := turns } }) hturns.symm
  have hblock : BlockNext s.popTurn := .inr ⟨rest, hturns⟩
  have hblock' : BlockNext (s.popTurn.withOverrun (some w)) := hblock
  have hbusy : s.popTurn.popTurn.busy = true := hb
  have hbusy' : (s.popTurn.popTurn.withOverrun (some w)).busy = true := hb
  obtain ⟨u, hu, hnone, hu'⟩ := runCommand_refused (s := s.popTurn.popTurn) ho w
  refine ⟨_, u, (u.withOverrun (some w)).settleOverrun, hwrite, ?quiet, ?refused, settleOverrun_refused hnone w,
    settleOverrun_refused_raised hnone w⟩
  case quiet => rw [hquiet, step_block hblock, blockTurn_busy hbusy, hu]
  case refused => exact (step_block hblock').trans ((blockTurn_busy hbusy').trans hu')

end Sys2Proof.Machine

/-! # The dutiful host

A command raises no CMD_OVERRUN of its own (`exec_noOverrun`), so the error needs a refused word. A host that lets the
block end each command before the next write leaves none, whatever the command and whether the block has halted. -/

namespace Sys2Proof.Machine

open Sys2Proof.Claims

/-! ### No command raises CMD_OVERRUN -/

/-- A checked computation yields values that satisfy `P`, and does not raise CMD_OVERRUN: that error is recorded for a
refused word alone (R337). -/
def NoOverrun {α : Type} (r : Except CmdError α) (P : α → Prop := fun _ => True) : Prop :=
  match r with
  | .ok a => P a
  | .error e => e.code ≠ .cmdOverrun

section
variable {α β : Type} {P : β → Prop}

theorem NoOverrun.raiseIf {bad : Prop} [Decidable bad] {e : CmdError} {k : Except CmdError β} (hk : NoOverrun k P)
    (he : e.code ≠ .cmdOverrun := by exact nofun) : NoOverrun (raiseIf bad e k) P := by
  by_cases h : bad
  · rw [raiseIf_pos h]; exact he
  · rw [raiseIf_neg h]; exact hk

theorem NoOverrun.bind {m : Except CmdError α} {f : α → Except CmdError β} (hm : NoOverrun m)
    (hf : ∀ a, NoOverrun (f a) P) : NoOverrun (m >>= f) P := by
  cases m with
  | ok a => exact hf a
  | error e => exact hm

end

theorem glog_noOverrun (n : Nat) : NoOverrun (glog n) := .raiseIf trivial

theorem gfProduct_noOverrun (a b : Nat) : NoOverrun (gfProduct a b) :=
  .bind (glog_noOverrun a) fun _ => (glog_noOverrun b).bind fun _ => trivial

theorem polyPush_noOverrun (q : List Byte) (c : Byte) : NoOverrun (polyPush q c) := .raiseIf trivial

theorem polyNew_noOverrun (num : List Byte) (shift : Nat) : NoOverrun (polyNew num shift) :=
  .raiseIf (.raiseIf trivial)

theorem mulRow_noOverrun (x : Byte) (b : List Byte) (k : Nat) (r : List Byte) : NoOverrun (mulRow x b k r) := by
  induction b generalizing k r with
  | nil => trivial
  | cons y ys ih => exact .bind (gfProduct_noOverrun _ _) fun _ => ih _ _

theorem mulRows_noOverrun (b a : List Byte) (k : Nat) (r : List Byte) : NoOverrun (mulRows b a k r) := by
  induction a generalizing k r with
  | nil => trivial
  | cons x xs ih => exact .bind (mulRow_noOverrun x b k r) fun _ => ih _ _

theorem polyMul_noOverrun (a b : List Byte) : NoOverrun (polyMul a b) :=
  .raiseIf (.raiseIf (.bind (mulRows_noOverrun b a 0 _) fun _ => polyNew_noOverrun _ _))

theorem subScaled_noOverrun (ratio : Int) (num b : List Byte) : NoOverrun (subScaled ratio num b) := by
  induction num, b using subScaled.induct with
  | case1 num => unfold subScaled; trivial
  | case2 y b => trivial
  | case3 c num y b ih => exact .bind (glog_noOverrun _) fun _ => ih.bind fun _ => trivial

theorem modLoop_noOverrun (b : List Byte) (fuel : Nat) (a : List Byte) : NoOverrun (modLoop b fuel a) := by
  induction fuel generalizing a with
  | zero => trivial
  | succ fuel ih =>
    unfold modLoop
    split
    · trivial
    · exact .bind (glog_noOverrun _) fun _ => .bind (glog_noOverrun _) fun _ =>
        .bind (subScaled_noOverrun _ a b) fun num => ih (strip num)

theorem polyMod_noOverrun (a b : List Byte) : NoOverrun (polyMod a b) := .raiseIf (modLoop_noOverrun b a.length a)

theorem genLoop_noOverrun (n : Nat) : NoOverrun (genLoop n) := by
  induction n with
  | zero => trivial
  | succ n ih => exact .bind ih fun _ => polyMul_noOverrun _ _

theorem polyGen_noOverrun (n : Nat) : NoOverrun (polyGen n) := .raiseIf (genLoop_noOverrun n)

theorem bbPut_noOverrun (bb : List Bool) (v n : Nat) : NoOverrun (bbPut bb v n) := .raiseIf trivial

theorem bbFinish_noOverrun (c : Nat) (bb : List Bool) : NoOverrun (bbFinish c bb) := .raiseIf trivial

theorem tblValue_noOverrun (v e sel k : Nat) : NoOverrun (tblValue v e sel k) := by
  unfold tblValue
  split
  case h_6 | h_7 | h_8 | h_10 => exact .raiseIf trivial
  case h_13 => exact nofun
  all_goals trivial

theorem ecWords_noOverrun (d : List Byte) (n : Nat) : NoOverrun (ecWords d n) :=
  .bind (polyNew_noOverrun d n) fun _ => .bind (polyGen_noOverrun n) fun _ =>
    .bind (polyMod_noOverrun _ _) fun _ => trivial

theorem ecAll_noOverrun (n : Nat) (ds : List (List Byte)) : NoOverrun (ecAll n ds) := by
  induction ds with
  | nil => trivial
  | cons d ds ih => exact .bind (ecWords_noOverrun d n) fun _ => ih.bind fun _ => trivial

theorem codewordsOf_noOverrun (v e : Nat) (bb : List Bool) : NoOverrun (codewordsOf v e bb) :=
  (ecAll_noOverrun _ _).bind fun _ => trivial

theorem State.withMatrix_error (s : State) (m : Matrix) : ({ s with mx := m } : State).error = s.error := rfl

theorem State.error_marked (s : State) (g : Grid) (m : MState) (t : Bool) :
    ((s.setGrid g m).markTest t).error = s.error := rfl

theorem State.selected_error (s : State) (trials : List ScoreRegs) : (s.selected trials).error = s.error := rfl

/-- Every command ends in a computation that does not raise CMD_OVERRUN, and whose writes leave the error record. -/
theorem exec_noOverrun (i : Instr) (s : State) :
    ∃ r, exec i s = s.finish r ∧ NoOverrun r fun s' => s'.error = s.error := by
  cases i with
  | nop | li | lui | add | sub | xor | rdsr | gfExp | gfExpi | pClr | pCopy | pLen | bbClr =>
    exact ⟨.ok _, rfl, rfl⟩
  | setver | setecl | setmask | pGet | bbGetbit | bbGetbyte | bchFmt | bchVer => exact ⟨_, rfl, .raiseIf rfl⟩
  | mInit | mProbes | mAlign | mTiming | mScore => exact ⟨_, rfl, .raiseIf rfl⟩
  | cwRd | mRead | maskq => exact ⟨_, rfl, .raiseIf (.raiseIf rfl)⟩
  | mTypeinfo t | mTypenum t => exact ⟨_, rfl, .raiseIf (s.error_marked _ _ t)⟩
  | mMap => exact ⟨_, rfl, .raiseIf (.raiseIf (s.setGrid_error _ _))⟩
  | mBuild t => exact ⟨_, rfl, .raiseIf (.raiseIf (s.withMatrix_error _))⟩
  | mSelect => exact ⟨_, rfl, .raiseIf (.raiseIf (s.selected_error _))⟩
  | gfLog => exact ⟨_, rfl, (glog_noOverrun _).bind fun _ => rfl⟩
  | gfMul => exact ⟨_, rfl, (gfProduct_noOverrun _ _).bind fun _ => rfl⟩
  | pPushi => exact ⟨_, rfl, (polyPush_noOverrun _ _).bind fun _ => rfl⟩
  | pPush => exact ⟨_, rfl, .raiseIf ((polyPush_noOverrun _ _).bind fun _ => rfl)⟩
  | pNorm => exact ⟨_, rfl, (polyNew_noOverrun _ _).bind fun _ => rfl⟩
  | pMul => exact ⟨_, rfl, (polyMul_noOverrun _ _).bind fun _ => rfl⟩
  | pMod => exact ⟨_, rfl, (polyMod_noOverrun _ _).bind fun _ => rfl⟩
  | pGen => exact ⟨_, rfl, (polyGen_noOverrun _).bind fun _ => rfl⟩
  | bbPut | bbPutr => exact ⟨_, rfl, (bbPut_noOverrun _ _ _).bind fun _ => rfl⟩
  | bbFinal => exact ⟨_, rfl, .raiseIf ((bbFinish_noOverrun _ _).bind fun _ => rfl)⟩
  | tblQ => exact ⟨_, rfl, .raiseIf ((tblValue_noOverrun _ _ _ _).bind fun _ => rfl)⟩
  | rsEncode => exact ⟨_, rfl, .raiseIf (.raiseIf ((codewordsOf_noOverrun _ _ _).bind fun _ => rfl))⟩

/-- A command leaves the error record alone, or records an error of its own. -/
theorem exec_error_noOverrun {i : Instr} {s t : State} (h : exec i s = .next t)
    (hs : s.error.code ≠ .cmdOverrun) : t.error.code ≠ .cmdOverrun := by
  obtain ⟨r, hr, hno⟩ := exec_noOverrun i s
  rw [hr] at h
  cases r with
  | error e => exact next_inj h ▸ hno
  | ok s' =>
    obtain rfl := next_inj h
    exact congrArg ErrRecord.code hno ▸ hs

/-! ### The host's turns -/

/-- A host that keeps its duty has these turns to come on the block at `base`: it has drawn no free value beyond the
first `draws`, its block holds no refused word, and no CMD_OVERRUN is recorded. -/
structure State.OnDuty (s : State) (base draws : Nat) (turns : List Turn) : Prop where
  base : s.inst.blockBase = base
  draws : s.outside.draws = draws
  turns : s.outside.turns = turns
  released : s.outside.rstN = true
  noRefused : s.overrun = none
  noOverrun : s.error.code ≠ .cmdOverrun

section
variable {s : State} {base draws : Nat} {rest : List Turn}

theorem State.OnDuty.popTurn {x : Turn} (h : s.OnDuty base draws (x :: rest)) : s.popTurn.OnDuty base draws rest :=
  ⟨h.base, h.draws, congrArg List.tail h.turns, h.released, h.noRefused, h.noOverrun⟩

/-- The CMD write to an idle block is accepted, or discarded where the block has halted (R63, R335). -/
theorem State.OnDuty.write {w : Word} (h : s.OnDuty base draws (.write (base + 0x100) w :: rest))
    (hb : s.busy = false) : ∃ t, step s = .next t ∧ t.OnDuty base draws rest := by
  have hp := h.popTurn
  have hsel : s.popTurn.select (base + 0x100) = some 0x100 := h.base ▸ s.popTurn.select_offset (by decide) rfl
  refine ⟨_, step_write h.turns, ?_⟩
  rw [State.busWrite_of_select hp.released hsel, if_pos rfl]
  cases he : s.error.err with
  | true => rwa [State.writeCmd_halted (s := s.popTurn) he]
  | false =>
    rw [State.writeCmd_idle (s := s.popTurn) he hb]
    exact ⟨hp.base, hp.draws, hp.turns, hp.released, hp.noRefused, hp.noOverrun⟩

/-- A command that the block runs ends without CMD_OVERRUN, and with no refused word to record. -/
theorem State.OnDuty.blockTurn (h : s.OnDuty base draws rest) :
    ∃ t, blockTurn s = .next t ∧ t.OnDuty base draws rest ∧ t.busy = false := by
  cases hb : s.busy with
  | false => exact ⟨s, blockTurn_idle hb, h, hb⟩
  | true =>
    rw [blockTurn_busy hb]
    rcases runCommand_cases s with ⟨i, -, hr⟩ | ⟨e, -, hr⟩
    · obtain ⟨t, ht, -⟩ := exec_next i s
      obtain ⟨hinst, hover, hout, hidle⟩ := exec_keeps ht
      have hno := hover.trans h.noRefused
      exact ⟨t, by rw [hr, ht, afterCommand, State.settleOverrun_none hno],
        ⟨hinst ▸ h.base, hout ▸ h.draws, hout ▸ h.turns, hout ▸ h.released, hno, exec_error_noOverrun ht h.noOverrun⟩,
        hidle⟩
    · rw [State.settleOverrun_none (s := s.raised _) h.noRefused] at hr
      exact ⟨_, hr, ⟨h.base, h.draws, h.turns, h.released, h.noRefused, nofun⟩, rfl⟩

/-- A read of an idle block draws no free value (R62, R367). -/
theorem State.OnDuty.read {addr : Nat} (h : s.OnDuty base draws (.read addr :: rest)) (hb : s.busy = false) :
    ∃ t, step s = .next t ∧ t.OnDuty base draws rest ∧ t.busy = false := by
  have hp := h.popTurn
  have hdraws := busRead_draws (s := s.popTurn) hb addr
  have hrst := busRead_rstN s.popTurn addr
  refine ⟨_, step_read h.turns, ⟨?_, hdraws.trans hp.draws, ?_, hrst.trans hp.released, ?_, ?_⟩, ?_⟩
  · rw [State.busRead_inst, hp.base]
  · rw [State.busRead_turns, hp.turns]
  · rw [State.busRead_overrun, hp.noRefused]
  · rw [State.busRead_error]; exact hp.noOverrun
  · rw [State.busRead_busy]; exact hb

/-- The three turns of a command keep the host on duty, and leave the block idle. -/
theorem State.OnDuty.command {i : Instr} (h : s.OnDuty base draws (issueTurns base i ++ rest)) (hb : s.busy = false) :
    ∃ t u v, step s = .next t ∧ step t = .next u ∧ step u = .next v ∧ v.OnDuty base draws rest ∧ v.busy = false := by
  obtain ⟨t, hst, ht⟩ := h.write hb
  obtain ⟨u, htu, hu, hub⟩ := ht.popTurn.blockTurn
  obtain ⟨v, huv, hv, hvb⟩ := hu.read hub
  exact ⟨t, u, v, hst, (step_block (.inr ⟨_, ht.turns⟩)).trans htu, huv, hv, hvb⟩

theorem State.OnDuty.commands {is : List Instr} (h : s.OnDuty base draws (hostTurns base is)) (hb : s.busy = false) :
    ∃ t, Runs (3 * is.length) s t ∧ t.OnDuty base draws [] ∧ t.busy = false := by
  induction is generalizing s with
  | nil => exact ⟨s, rfl, h, hb⟩
  | cons i is ih =>
    obtain ⟨t, u, v, hst, htu, huv, hv, hvb⟩ := h.command hb
    obtain ⟨x, hrun, hx, hxb⟩ := ih hv hvb
    exact ⟨x, ⟨t, hst, u, htu, v, huv, hrun⟩, hx, hxb⟩

end

/-- Settles O52: induction on the commands, each of which keeps the host on duty. -/
theorem dutifulHostSeesNoOverrun : Obligations.DutifulHostSeesNoOverrun := by
  intro is s hb hr hover herr hturns
  obtain ⟨t, hrun, ht, htb⟩ := State.OnDuty.commands ⟨rfl, rfl, hturns, hr, hover, herr⟩ hb
  exact ⟨t, hrun, ht.noOverrun, ht.draws, htb, ht.turns⟩

end Sys2Proof.Machine

/-! # The mask functions, and the one-command build as the seven commands -/

namespace Sys2Proof.Machine

open Sys2Proof.Claims

/-! ### MASKQ (R300, R301) -/

theorem exec_maskq (s : State) (rd ra rb : Reg) : exec (.maskq rd ra rb) s =
    s.finish (raiseIf (176 < (s.reg ra).toNat) { code := .outOfRangeAccess, info := s.reg ra }
      (raiseIf (176 < (s.reg rb).toNat) { code := .outOfRangeAccess, info := s.reg rb }
        (.ok (s.setReg rd (wordOf (maskf s.conf.mask.toNat (s.reg ra).toNat (s.reg rb).toNat).toNat))))) := rfl

theorem maskq_writes {s : State} {rd ra rb : Reg} (hi : (s.reg ra).toNat ≤ 176) (hj : (s.reg rb).toNat ≤ 176) :
    WritesReg (.maskq rd ra rb) s rd
      (if maskf s.conf.mask.toNat (s.reg ra).toNat (s.reg rb).toNat then 1 else 0) := by
  have hexec := exec_of_not_bad (exec_of_not_bad (exec_maskq s rd ra rb) (Nat.not_lt.mpr hi)) (Nat.not_lt.mpr hj)
  cases hmask : maskf s.conf.mask.toNat (s.reg ra).toNat (s.reg rb).toNat <;>
    exact writesReg_of_finish (by rw [hexec, hmask]; rfl)

/-- Settles O40: the expressions and the table as they stand, and MASKQ's two checks in order. -/
theorem maskFunctionsAndQuery : Obligations.MaskFunctionsAndQuery := by
  refine ⟨fun i j => ?expressions, ?table, fun s rd ra rb => ⟨maskq_writes, ?row, fun hi => ?column⟩⟩
  case expressions => and_intros <;> exact decide_eq_true_iff
  case table => decide
  case row => exact raises_of_bad (exec_maskq s rd ra rb)
  case column => exact raises_of_bad (exec_of_not_bad (exec_maskq s rd ra rb) (Nat.not_lt.mpr hi))

/-! ### M_BUILD as the seven commands (R308) -/

/-- In t the separate commands have built cells g so far, of the configuration and the stream of s. -/
structure Building (s t : State) (g : Grid) (m : MState) (test : Bool) : Prop where
  conf : t.conf = s.conf
  cw : t.cw = s.cw
  error : t.error = s.error
  mx : t.mx = { cells := g, side := BitVec.ofNat 8 (sideOf s.conf.ver.toNat), mstate := m, mtest := test }

section
variable {s t : State} {g g' : Grid} {m m' : MState} {test b : Bool} {i : Instr}

theorem Building.mInit (hver : s.conf.ver ≠ 0) :
    ∃ u, exec .mInit s = .next u ∧ Building s u (gridClear (sideOf s.conf.ver.toNat) s.mx.cells) .empty false :=
  ⟨_, exec_of_not_bad (exec_mInit s) hver, rfl, rfl, rfl, rfl⟩

theorem Building.mstate (h : Building s t g m test) : t.mx.mstate = m := by rw [h.mx]

theorem Building.cells (h : Building s t g m test) : t.mx.cells = g := by rw [h.mx]

theorem Building.side (h : Building s t g m test) (h40 : s.conf.ver.toNat ≤ 40) :
    t.side = sideOf s.conf.ver.toNat := by
  rw [State.side, h.mx]
  exact side_toNat h40

/-- A command that writes new cells and a new build state. -/
theorem Building.grid (h : Building s t g m test) (hexec : exec i t = t.finish (.ok (t.setGrid g' m'))) :
    ∃ u, exec i t = .next u ∧ Building s u g' m' test := by
  refine ⟨_, hexec, h.conf, h.cw, h.error, ?_⟩
  rw [State.complete_mx, State.setGrid_mx, h.mx]

/-- A command that writes new cells, a new build state, and its test flag. -/
theorem Building.markedGrid (h : Building s t g m test)
    (hexec : exec i t = t.finish (.ok ((t.setGrid g' m').markTest b))) :
    ∃ u, exec i t = .next u ∧ Building s u g' m' (test || b) := by
  refine ⟨_, hexec, h.conf, h.cw, h.error, ?_⟩
  rw [State.complete_mx, State.markTest_mx, State.setGrid_mx, h.mx]

end

/-- Settles O43: each command goes on from the cells that the one before it left, as the build does. -/
theorem buildIsTheSevenCommands : Obligations.BuildIsTheSevenCommands := by
  intro s test hver h40 hready
  obtain ⟨s1, e1, h1⟩ := Building.mInit hver
  obtain ⟨s2, e2, h2⟩ := h1.grid (exec_of_mstate (exec_mProbes s1) h1.mstate)
  obtain ⟨s3, e3, h3⟩ := h2.grid (exec_of_mstate (exec_mAlign s2) h2.mstate)
  obtain ⟨s4, e4, h4⟩ := h3.grid (exec_of_mstate (exec_mTiming s3) h3.mstate)
  obtain ⟨s5, e5, h5⟩ := h4.markedGrid (exec_of_mstate (exec_mTypeinfo s4 test) h4.mstate)
  obtain ⟨s6, e6, h6⟩ := h5.markedGrid (exec_of_mstate (exec_mTypenum s5 test) h5.mstate)
  have hready6 : ¬ s6.cw.ready = false := by rw [h6.cw, hready]; nofun
  obtain ⟨s7, e7, h7⟩ := h6.grid (exec_of_not_bad (exec_of_mstate (exec_mMap s6) (.inl h6.mstate)) hready6)
  refine ⟨s1, s2, s3, s4, s5, s6, s7, _, e1, e2, e3, e4, e5, e6, e7, exec_mBuild_ready hver hready test, ?_,
    h7.error.symm⟩
  have hstream : s6.stream = s.stream := by unfold State.stream State.cwm; rw [h6.cw]
  have hformat : formatOf s4 = formatOf s := by unfold formatOf; rw [h4.conf]
  rw [State.complete_mx, h7.mx, h6.cells, h5.cells, h4.cells, h3.cells, h2.cells, h1.cells, h6.side h40, h5.side h40,
    h4.side h40, h3.side h40, h1.side h40, h6.conf, h5.conf, h2.conf, hstream, hformat, Bool.false_or, Bool.or_self]
  rfl

end Sys2Proof.Machine

/-! # The penalty score -/

namespace Sys2Proof.Machine

open Sys2Proof.Claims

/-! ### Sums over cells -/

theorem sumCells_eq (h w : Nat) (f : Nat → Nat → Nat) :
    sumCells h w f = ∑ r ∈ Finset.range h, ∑ c ∈ Finset.range w, f r c := rfl

/-- The cells that a test picks, counted one by one. -/
theorem sumCells_toNat (h w : Nat) (b : Nat → Nat → Bool) : (sumCells h w fun r c => (b r c).toNat) =
    ((Finset.range h ×ˢ Finset.range w).filter fun p : Nat × Nat => b p.1 p.2 = true).card := by
  rw [sumCells_eq, Finset.card_filter, Finset.sum_product]
  refine Finset.sum_congr rfl fun r _ => Finset.sum_congr rfl fun c _ => ?_
  cases b r c <;> rfl

/-- At most every cell of the rectangle is picked. -/
theorem card_cells_le (h w : Nat) (P : Nat × Nat → Prop) [DecidablePred P] :
    ((Finset.range h ×ˢ Finset.range w).filter P).card ≤ h * w := by
  refine (Finset.card_filter_le _ _).trans_eq ?_
  rw [Finset.card_product, Finset.card_range, Finset.card_range]

/-! ### The neighbours of a cell (R302) -/

/-- The neighbour of a cell at an offset, where there is one. -/
def neighbourAt (n r c : Nat) (d : Int × Int) : Option (Nat × Nat) :=
  if ¬ (d.1 = 0 ∧ d.2 = 0) ∧ 0 ≤ (r : Int) + d.1 ∧ (r : Int) + d.1 < n ∧ 0 ≤ (c : Int) + d.2 ∧ (c : Int) + d.2 < n then
    some (((r : Int) + d.1).toNat, ((c : Int) + d.2).toNat)
  else none

section
variable {n r c : Nat}

theorem neighbours_eq : neighbours n r c = (offsets (-1) 3 ×ˢ offsets (-1) 3).filterMap (neighbourAt n r c) := by
  show _ = ((offsets (-1) 3).flatMap fun dr => (offsets (-1) 3).map (Prod.mk dr)).filterMap (neighbourAt n r c)
  rw [List.filterMap_flatMap]
  simp only [List.filterMap_map]
  rfl

theorem neighbourAt_eq_some {d : Int × Int} {p : Nat × Nat} : neighbourAt n r c d = some p ↔
    (d.1 = (p.1 : Int) - r ∧ d.2 = (p.2 : Int) - c) ∧ p ≠ (r, c) ∧ p.1 < n ∧ p.2 < n := by
  obtain ⟨i, j⟩ := p
  unfold neighbourAt
  rw [Option.ite_none_right_eq_some, Option.some.injEq, Prod.mk.injEq, ne_eq, Prod.mk.injEq]
  dsimp only
  omega

theorem neighbours_nodup : (neighbours n r c).Nodup := by
  have hoffsets : (offsets (-1) 3).Nodup := by decide
  rw [neighbours_eq]
  refine (hoffsets.product hoffsets).filterMap fun d d' p hd hd' => ?_
  obtain ⟨⟨h1, h2⟩, -⟩ := neighbourAt_eq_some.mp hd
  obtain ⟨⟨h1', h2'⟩, -⟩ := neighbourAt_eq_some.mp hd'
  exact Prod.ext (h1.trans h1'.symm) (h2.trans h2'.symm)

theorem mem_neighbours {p : Nat × Nat} : p ∈ neighbours n r c ↔
    (p.1 < n ∧ p.2 < n) ∧ p ≠ (r, c) ∧ distance p.1 r ≤ 1 ∧ distance p.2 c ≤ 1 := by
  have hmem : ∀ x : Int, x ∈ offsets (-1) 3 ↔ -1 ≤ x ∧ x < 2 := fun x => mem_offsets_iff
  rw [neighbours_eq, List.mem_filterMap]
  simp only [neighbourAt_eq_some, Prod.exists, List.mem_product, hmem, distance]
  constructor
  · rintro ⟨i, j, hij, ⟨h1, h2⟩, hne, hr, hc⟩
    exact ⟨⟨hr, hc⟩, hne, by omega, by omega⟩
  · rintro ⟨⟨hr, hc⟩, hne, h1, h2⟩
    exact ⟨_, _, ⟨by omega, by omega⟩, ⟨rfl, rfl⟩, hne, hr, hc⟩

end

/-! ### The rules on the square (R302 to R305) -/

section
variable (s : State) {n : Nat}

theorem darkAt_eq_isDarkCell {r c : Nat} (hr : r < n) (hc : c < n) :
    darkAt (darkRows n s.mx.cells) r c = isDarkCell s r c := by
  unfold darkAt darkRows isDarkCell cell gridGet
  simp [List.getD_eq_getElem?_getD, hr, hc]

theorem sameCount_eq {r c : Nat} (hr : r < n) (hc : c < n) :
    sameCount (darkRows n s.mx.cells) n r c = sameColour s n r c := by
  unfold sameCount sameColour
  rw [List.countP_eq_length_filter, ← List.toFinset_card_of_nodup (neighbours_nodup.filter _)]
  congr 1
  ext p
  simp only [List.mem_toFinset, List.mem_filter, mem_neighbours, Finset.mem_filter, Finset.mem_product,
    Finset.mem_range, and_assoc]
  refine and_congr_right fun hr' => and_congr_right fun hc' => ?_
  rw [darkAt_eq_isDarkCell s hr' hc', darkAt_eq_isDarkCell s hr hc, beq_iff_eq]

theorem penalty1_eq : penalty1 (darkRows n s.mx.cells) n = pen1 s n := by
  rw [penalty1, sumCells_eq, pen1]
  refine Finset.sum_congr rfl fun r hr => Finset.sum_congr rfl fun c hc => ?_
  rw [sameCount_eq s (Finset.mem_range.mp hr) (Finset.mem_range.mp hc)]

theorem penalty2_eq : penalty2 (darkRows n s.mx.cells) n = pen2 s n := by
  rw [penalty2, sumCells_toNat, pen2]
  congr 2
  refine Finset.filter_congr fun p hp => ?_
  obtain ⟨hr, hc⟩ : p.1 < n - 1 ∧ p.2 < n - 1 := by simpa using hp
  rw [darkAt_eq_isDarkCell s (by omega) (by omega), darkAt_eq_isDarkCell s (by omega) (by omega),
    darkAt_eq_isDarkCell s (by omega) (by omega), darkAt_eq_isDarkCell s (by omega) (by omega)]
  simp [and_assoc]

theorem darkCount_eq : darkCount (darkRows n s.mx.cells) n = darkModules s n := by
  rw [darkCount, sumCells_toNat, darkModules]
  congr 1
  refine Finset.filter_congr fun p hp => ?_
  obtain ⟨hr, hc⟩ : p.1 < n ∧ p.2 < n := by simpa using hp
  rw [darkAt_eq_isDarkCell s hr hc]

theorem all_range_iff {m : Nat} {p : Nat → Bool} : (List.range m).all p = true ↔ ∀ k : Fin m, p k.val = true := by
  simp [List.all_eq_true, Fin.forall_iff]

theorem finderRun_eq_runPattern : ∀ k : Fin 7, finderRun.getD k.val false = runPattern k.val := by decide

theorem penalty3_eq : penalty3 (darkRows n s.mx.cells) n = pen3 s n := by
  rw [penalty3, sumCells_toNat, sumCells_toNat, pen3]
  congr 3
  all_goals
    refine Finset.filter_congr fun p hp => all_range_iff.trans (forall_congr' fun k => ?_)
    have hp' := Finset.mem_product.mp hp
    rw [Finset.mem_range, Finset.mem_range] at hp'
    rw [darkAt_eq_isDarkCell s (by omega) (by omega), finderRun_eq_runPattern, beq_iff_eq]

theorem natAbs_eq_distance (a b : Nat) : ((a : Int) - b).natAbs = distance a b := by
  unfold distance
  omega

theorem penalty4_eq (mode : Config.N4Mode) (D T : Nat) : penalty4 mode D T = pen4num mode D T := by
  cases mode with
  | exact => exact natAbs_eq_distance (200 * D) (100 * T)
  | floor => exact congrArg (fun x => 10 * (x / T) * T) (natAbs_eq_distance (20 * D) (10 * T))

/-! ### The bounds that keep the registers exact -/

/-- A cell has at most the cells of its 3 × 3 block as neighbours. -/
theorem sameColour_le (r c : Nat) : sameColour s n r c ≤ 9 := by
  have hblock : sameColour s n r c ≤ (Finset.Icc (r - 1) (r + 1) ×ˢ Finset.Icc (c - 1) (c + 1)).card := by
    refine Finset.card_le_card fun p hp => ?_
    obtain ⟨-, -, hr, hc, -⟩ := Finset.mem_filter.mp hp
    unfold distance at hr hc
    simp only [Finset.mem_product, Finset.mem_Icc]
    omega
  rw [Finset.card_product, Nat.card_Icc, Nat.card_Icc] at hblock
  have hrows : r + 1 + 1 - (r - 1) ≤ 3 := by omega
  have hcols : c + 1 + 1 - (c - 1) ≤ 3 := by omega
  exact hblock.trans (Nat.mul_le_mul hrows hcols)

theorem pen1_le : pen1 s n ≤ n * n * 7 := by
  have hcell : ∀ r c, (if 5 < sameColour s n r c then 3 + sameColour s n r c - 5 else 0) ≤ 7 := fun r c => by
    have := sameColour_le s (n := n) r c
    split <;> omega
  calc pen1 s n ≤ ∑ r ∈ Finset.range n, ∑ c ∈ Finset.range n, 7 :=
        Finset.sum_le_sum fun r _ => Finset.sum_le_sum fun c _ => hcell r c
    _ = n * n * 7 := by simp [mul_assoc]

theorem pen2_le : pen2 s n ≤ 3 * (n * n) :=
  Nat.mul_le_mul_left 3 ((card_cells_le _ _ _).trans (Nat.mul_le_mul (Nat.sub_le _ _) (Nat.sub_le _ _)))

theorem pen3_le : pen3 s n ≤ 40 * (n * n + n * n) :=
  Nat.mul_le_mul_left 40 (Nat.add_le_add
    ((card_cells_le _ _ _).trans (Nat.mul_le_mul_left n (Nat.sub_le _ _)))
    ((card_cells_le _ _ _).trans (Nat.mul_le_mul_right n (Nat.sub_le _ _))))

theorem darkModules_le : darkModules s n ≤ n * n := card_cells_le _ _ _

theorem pen4num_le (mode : Config.N4Mode) {D T : Nat} (h : D ≤ T) : pen4num mode D T ≤ 100 * T := by
  cases mode with
  | exact =>
    show distance (200 * D) (100 * T) ≤ 100 * T
    unfold distance
    omega
  | floor =>
    have hdistance : distance (20 * D) (10 * T) ≤ 10 * T := by
      unfold distance
      omega
    calc 10 * (distance (20 * D) (10 * T) / T) * T = 10 * (distance (20 * D) (10 * T) / T * T) := mul_assoc _ _ _
      _ ≤ 10 * (10 * T) := Nat.mul_le_mul_left 10 ((Nat.div_mul_le_self _ _).trans hdistance)
      _ = 100 * T := by omega

end

/-! ### M_SCORE (R302 to R307) -/

theorem toNat_wordOf {x : Nat} (h : x < 2 ^ 32) : (wordOf x).toNat = x := Nat.mod_eq_of_lt h

/-- The score registers of an n × n square hold the exact numbers, up to the largest side. -/
theorem scoreOf_exact (s : State) {n : Nat} (h177 : n ≤ 177) :
    let x := scoreOf s.inst.n4Mode n s.mx.cells
    let p4 := pen4num s.inst.n4Mode (darkModules s n) (n * n)
    x.pen1.toNat = pen1 s n ∧ x.pen2.toNat = pen2 s n ∧ x.pen3.toNat = pen3 s n ∧ x.pen4num.toNat = p4 ∧
      x.dark.toNat = darkModules s n ∧ x.score.toNat = (pen1 s n + pen2 s n + pen3 s n) * (n * n) + p4 := by
  have hT : n * n ≤ 31329 := Nat.mul_le_mul h177 h177
  have h1 := pen1_le s (n := n)
  have h2 := pen2_le s (n := n)
  have h3 := pen3_le s (n := n)
  have hD := darkModules_le s (n := n)
  have h4 := pen4num_le s.inst.n4Mode hD
  have hsum : pen1 s n + pen2 s n + pen3 s n ≤ 90 * 31329 := by omega
  have hscore := Nat.mul_le_mul hsum hT
  simp only [scoreOf, penalty1_eq, penalty2_eq, penalty3_eq, penalty4_eq, darkCount_eq]
  exact ⟨toNat_wordOf (by omega), toNat_wordOf (by omega), toNat_wordOf (by omega), toNat_wordOf (by omega),
    Nat.mod_eq_of_lt (by omega), Nat.mod_eq_of_lt (by omega)⟩

theorem exec_mScore (s : State) : exec .mScore s =
    s.finish (s.needMState (s.mx.mstate = .mapped ∨ s.mx.mstate = .scored)
      (.ok
        { s with
          score := scoreOf s.inst.n4Mode s.side s.mx.cells
          mx := { s.mx with mstate := .scored } })) := rfl

theorem same_setScore {s : State} {e : Elem} (x : ScoreRegs) (m : MState) (hscore : e ≠ .score)
    (hstate : e ≠ .mstate) : e.same s { s with score := x, mx := { s.mx with mstate := m } } := by
  cases e with
  | score => exact absurd rfl hscore
  | mstate => exact absurd rfl hstate
  | regs | polys | cwm => exact fun _ => rfl
  | mat => exact fun _ _ => rfl
  | _ => rfl

/-- Settles O41: the build state's check, then the numbers, each of which its register holds in full. -/
theorem penaltyScore : Obligations.PenaltyScore := by
  intro s n ok p4
  refine ⟨fun hno => raises_sequenceError (exec_mScore s) hno, fun hok h177 => ?_⟩
  refine completes_of_finish (exec_of_mstate (exec_mScore s) hok) rfl (fun e he => ?_) ⟨rfl, scoreOf_exact s h177⟩
  obtain ⟨hscore, hstate⟩ : e ≠ .score ∧ e ≠ .mstate := by simpa using he
  exact same_setScore _ _ hscore hstate

end Sys2Proof.Machine

/-! # The mask selection -/

namespace Sys2Proof.Machine

open Sys2Proof.Claims

/-! ### The selection rule (R309) -/

/-- The first k indices scanned for the least value, a later one taken only when it is strictly less. -/
def firstLeast (f : Nat → BitVec 64) (k : Nat) : Nat :=
  (List.range k).foldl (fun best m => if f m < f best then m else best) 0

theorem selectMask_eq (sc : List ScoreRegs) :
    selectMask sc = firstLeast (fun m => (sc.getD m ScoreRegs.reset).score) 8 := rfl

theorem firstLeast_succ (f : Nat → BitVec 64) (k : Nat) :
    firstLeast f (k + 1) = if f k < f (firstLeast f k) then k else firstLeast f k := by
  rw [firstLeast, List.range_succ, List.foldl_append]
  rfl

/-- No scanned value is less than the one at the result, and no earlier one equals it. -/
theorem firstLeast_spec (f : Nat → BitVec 64) (k : Nat) : firstLeast f k ≤ k - 1 ∧
    (∀ m < k, f (firstLeast f k) ≤ f m) ∧ ∀ m < firstLeast f k, f (firstLeast f k) < f m := by
  induction k with
  | zero => exact ⟨Nat.le_refl 0, nofun, nofun⟩
  | succ k ih =>
    obtain ⟨hle, hleast, hfirst⟩ := ih
    rw [firstLeast_succ]
    split
    · next hlt =>
      have hless : ∀ m < k, f k < f m := fun m hm => Nat.lt_of_lt_of_le hlt (hleast m hm)
      refine ⟨Nat.le_refl k, fun m hm => ?_, hless⟩
      rcases Nat.lt_succ_iff_lt_or_eq.mp hm with hm | rfl
      · exact BitVec.le_of_lt (hless m hm)
      · exact BitVec.le_refl _
    · next hge =>
      refine ⟨by omega, fun m hm => ?_, hfirst⟩
      rcases Nat.lt_succ_iff_lt_or_eq.mp hm with hm | rfl
      · exact hleast m hm
      · exact BitVec.not_lt.mp hge

/-! ### M_SELECT (R310, R311) -/

theorem exec_mSelect (s : State) : exec .mSelect s =
    s.finish (raiseIf (s.conf.ver = 0) { code := .badParameter, info := 0 }
      (s.needStream (.ok (s.selected ((List.range 8).map s.trial))))) := rfl

theorem State.selected_cmdCnt (s : State) (trials : List ScoreRegs) : (s.selected trials).cmdCnt = s.cmdCnt := rfl

theorem State.selected_mask (s : State) (trials : List ScoreRegs) :
    (s.selected trials).conf.mask = (s.selected trials).sel.bestMask := rfl

theorem State.selected_mx (s : State) (trials : List ScoreRegs) :
    (s.selected trials).mx = s.buildMatrix false (selectMask trials) := rfl

theorem same_selected {s : State} {e : Elem} (trials : List ScoreRegs)
    (he : e ∉ [.mask, .sel, .score, .side, .mat, .mstate, .mtest]) : e.same s (s.selected trials) := by
  cases e with
  | mask | sel | score | side | mat | mstate | mtest => exact absurd (by decide) he
  | regs | polys | cwm => exact fun _ => rfl
  | _ => rfl

/-- The state under another mask, as SETMASK would leave it but for the matrix. -/
def State.withMask (s : State) (m : BitVec 3) : State := { s with conf := { s.conf with mask := m } }

section
variable {s : State} (hver : s.conf.ver ≠ 0) (hready : s.cw.ready = true)
include hver hready

/-- A build under a mask leaves that mask's matrix. -/
theorem exec_mBuild_withMask (t : Bool) (m : BitVec 3) : exec (.mBuild t) (s.withMask m) =
    .next ({ s.withMask m with mx := s.buildMatrix t m.toNat } : State).complete :=
  exec_mBuild_ready (s := s.withMask m) hver hready t

/-- The trial's score is that of M_BUILD 1 and M_SCORE under the mask (R310). -/
theorem trial_of_build (h40 : s.conf.ver.toNat ≤ 40) (m : BitVec 3) :
    ∃ u v, exec (.mBuild true) (s.withMask m) = .next u ∧ exec .mScore u = .next v ∧ v.score = s.trial m.toNat := by
  refine ⟨_, _, exec_mBuild_withMask hver hready true m, exec_of_mstate (exec_mScore _) (.inl rfl), ?_⟩
  exact congrArg (scoreOf s.inst.n4Mode · (s.built true m.toNat)) (side_toNat h40)

end

/-- The eight trials of M_SELECT. Their scores are never computed here, so nothing should try to. -/
@[irreducible] def State.trials (s : State) : List ScoreRegs := (List.range 8).map s.trial

theorem getD_trials (s : State) {m : Nat} (hm : m < 8) : s.trials.getD m ScoreRegs.reset = s.trial m := by
  simp [State.trials, List.getD_eq_getElem?_getD, hm]

theorem selectMask_lt (sc : List ScoreRegs) : selectMask sc < 8 := by
  have h := (firstLeast_spec (fun m => (sc.getD m ScoreRegs.reset).score) 8).1
  rw [selectMask_eq]
  omega

/-- The selected mask has the least score of the eight trials, and any mask below it has a greater one. -/
theorem selectMask_trials_least (s : State) {m : Nat} (hm : m < 8) :
    (s.trial (selectMask s.trials)).score ≤ (s.trial m).score ∧
      (m < selectMask s.trials → (s.trial (selectMask s.trials)).score < (s.trial m).score) := by
  obtain ⟨-, hleast, hfirst⟩ := firstLeast_spec (fun m => (s.trials.getD m ScoreRegs.reset).score) 8
  rw [← selectMask_eq] at hleast hfirst
  rw [← getD_trials s hm, ← getD_trials s (selectMask_lt s.trials)]
  exact ⟨hleast m hm, hfirst m⟩

section
variable (s : State)

theorem selected_bestMask : (s.selected s.trials).sel.bestMask.toNat = selectMask s.trials :=
  Nat.mod_eq_of_lt (selectMask_lt s.trials)

theorem selected_selScore (m : Fin 8) : (s.selected s.trials).sel.selScore[m] = (s.trial m.val).score := by
  rw [← getD_trials s m.isLt]
  exact Vector.getElem_ofFn _

theorem selected_score : (s.selected s.trials).score = s.trial (selectMask s.trials) :=
  getD_trials s (selectMask_lt s.trials)

end

/-- Settles O45: the checks in order, then the trials as builds that are scored, and the first of the least. -/
theorem maskSelection : Obligations.MaskSelection := by
  intro s under
  refine ⟨raises_of_bad (exec_mSelect s), fun hver hno => ?noStream, fun hver h40 hready => ?selected⟩
  case noStream => exact statusIdle_eq s ▸ raises_of_bad (exec_of_not_bad (exec_mSelect s) hver) hno
  case selected =>
    have hexec : exec .mSelect s = s.finish (.ok (s.selected s.trials)) := by
      unfold State.trials
      exact exec_of_not_bad (exec_of_not_bad (exec_mSelect s) hver) (by simp [hready])
    refine completes_of_finish hexec (s.selected_cmdCnt _) (fun e he => same_selected _ he) ?_
    intro best
    have hbest : best.val = selectMask s.trials :=
      (Nat.mod_eq_of_lt (BitVec.isLt _)).trans (selected_bestMask s)
    refine ⟨s.selected_mask _, fun m => ?trial, fun m => ?least, ?matrix⟩
    case trial =>
      obtain ⟨u, v, hu, hv, hscore⟩ := trial_of_build hver hready h40 (BitVec.ofNat 3 m.val)
      have hm : (BitVec.ofNat 3 m.val).toNat = m.val := Nat.mod_eq_of_lt m.isLt
      rw [hm] at hscore
      refine ⟨u, v, hu, hv, ?_, ?_⟩
      · rw [hscore]
        exact selected_selScore s m
      · rintro rfl
        rw [hscore, hbest]
        exact selected_score s
    case least =>
      have hleast := selectMask_trials_least s m.isLt
      rw [← hbest, ← selected_selScore s best, ← selected_selScore s m] at hleast
      exact hleast
    case matrix =>
      refine ⟨_, exec_mBuild_withMask hver hready false _, ?_⟩
      rw [State.complete_mx, State.selected_mx, ← selected_bestMask]
      rfl

end Sys2Proof.Machine
